-- ==== Sys2Proof/Word.lean ====
section
/-! DEFINITION. The word type of the encoder (00_scope.md R10, R14): an encoded word is an unsigned
16-bit value, the block's sole output type. -/

namespace Sys2Proof

/-- An encoded word, `Word16` of R14: bit 0 is the least significant bit (R13). -/
abbrev Word16 := BitVec 16

/-- A byte of a caller's image. The encoder itself has no bytes (20_memory.md R41). -/
abbrev Byte := BitVec 8

end Sys2Proof
end

