-- ==== Sys2Proof/Syntax.lean ====
section
/-! DEFINITION. The types at the encoder's ports and between its two stages: the raw descriptor that a
request presents (60_exceptions.md R200), the error record of a refusal (R210, R211), and the validated
descriptor `Instr` (10_state.md R28), one constructor per form, that is per row of opcode_table.json. -/

namespace Sys2Proof

/-- The kind of a shift (00_scope.md R14): exactly three values (41_operate_ext.md R124). -/
inductive ShiftType where
  | LSHF
  | RSHFL
  | RSHFA
deriving DecidableEq, Repr

/-- The 16 variant tags the spec admits (00_scope.md R3, 60_exceptions.md R200). -/
inductive VariantTag where
  | ADD | AND | BR | JMP
  | NOT | XOR | SHF
  | LEA | LDW | STW | LDB | STB
  | JSR | JSRR | TRAP | RTI
deriving DecidableEq, Repr

/-- What the tag port of a request carries (R200): an admitted tag, or any other tag the caller's bus can
carry (CMP is one of these). -/
inductive Tag where
  | admitted (t : VariantTag)
  | other (code : Nat)
deriving DecidableEq, Repr

/-- The field names of 00_scope.md R16, declared in the order `FieldOrder` of 60_exceptions.md R206. -/
inductive FieldName where
  | dr | sr | sr1 | sr2 | base_r
  | imm5
  | n | z | p
  | pc_offset | offset6 | boffset6 | amount4
  | shift_type
  | trapvect8
deriving DecidableEq, Repr

/-- A supplied operand value or a tag, as an error record carries it (R210). -/
inductive Value where
  | int (v : Int)
  | bool (b : Bool)
  | shift (t : ShiftType)
  | tag (t : Tag)
deriving DecidableEq, Repr

/-- The raw descriptor (R200): a variant tag and, per field name, nothing or a value. Values are unbounded
integers (R14, decision D3). -/
structure RawDescriptor where
  tag : Tag
  dr : Option Int := none
  sr : Option Int := none
  sr1 : Option Int := none
  sr2 : Option Int := none
  base_r : Option Int := none
  imm5 : Option Int := none
  n : Option Bool := none
  z : Option Bool := none
  p : Option Bool := none
  pc_offset : Option Int := none
  offset6 : Option Int := none
  boffset6 : Option Int := none
  amount4 : Option Int := none
  shift_type : Option ShiftType := none
  trapvect8 : Option Int := none
deriving DecidableEq, Repr

/-- One required operand of a variant (R203): a single field, or a mutually exclusive pair. -/
inductive Slot where
  | single (f : FieldName)
  | pair (a b : FieldName)
deriving DecidableEq, Repr

/-- The constraint kinds of R211. -/
inductive ConstraintKind where
  | MissingField
  | BothExclusivePresent
  | NeitherExclusivePresent
  | RegisterOutOfRange
  | ImmediateOutOfRange
  | UnexpectedField
  | UnknownVariant
deriving DecidableEq, Repr

/-- The error record of R210, the block's single error kind. -/
structure InvalidOperand where
  kind : ConstraintKind
  fields : List FieldName
  value : Option Value
deriving DecidableEq, Repr

/-- The inner choice of ADD, AND and XOR (R28): a register or a 5-bit immediate, never both or neither. -/
inductive Op2 where
  | reg (sr2 : Int)
  | imm (imm5 : Int)
deriving DecidableEq, Repr

/-- The validated descriptor (R28), one constructor per form (a form is one row of opcode_table.json, R18).
R28's inner choice `Op2` and the value of `shift_type` are the choice of the constructor, so no value holds
both `sr2` and `imm5`, nor neither (R29). Operands are the integers the request supplied; that each is in its
range is `Instr.wellFormed` (WellFormed.lean), which construction establishes. -/
inductive Instr where
  | addReg (dr sr1 sr2 : Int)
  | addImm (dr sr1 imm5 : Int)
  | andReg (dr sr1 sr2 : Int)
  | andImm (dr sr1 imm5 : Int)
  | br (n z p : Bool) (pc_offset : Int)
  | jmp (base_r : Int)
  | notReg (dr sr : Int)
  | xorReg (dr sr1 sr2 : Int)
  | xorImm (dr sr1 imm5 : Int)
  | lshf (dr sr amount4 : Int)
  | rshfl (dr sr amount4 : Int)
  | rshfa (dr sr amount4 : Int)
  | lea (dr pc_offset : Int)
  | ldw (dr base_r offset6 : Int)
  | stw (sr base_r offset6 : Int)
  | ldb (dr base_r boffset6 : Int)
  | stb (sr base_r boffset6 : Int)
  | jsr (pc_offset : Int)
  | jsrr (base_r : Int)
  | trap (trapvect8 : Int)
  | rti
deriving DecidableEq, Repr

end Sys2Proof
end

