-- ==== Sys2Proof/Config.lean ====
section
/-! DEFINITION. The open parameters of 00_scope.md R11, fixed for one instance of the block when it is built
(10_state.md R25, 70_reset_and_hazards.md R242), and the one free choice among them, `ERROR_SELECT`.
`IMAGE_BYTE_ORDER` is the caller's and never read by the encoder's rules (20_memory.md R41): it is an argument
of the byte functions of Decode.lean and no field here. -/

namespace Sys2Proof

/-- `AND_OPCODE` (R11, R73, decision D8): LC-3b's 0b0101 or the source table's 0b0011. -/
inductive AndOpcode where
  | lc3b
  | sourceTable
deriving DecidableEq, Repr

/-- `JSR_RANGE_BITS` (R11, R161, decision D9): 9 or 11. -/
inductive JsrRange where
  | nine
  | eleven
deriving DecidableEq, Repr

/-- `UNSIGNED_FIELDS` (R11, R30, decision D10): the range rule of `amount4` and `trapvect8`. -/
inductive UnsignedFields where
  | unsigned
  | signed
deriving DecidableEq, Repr

/-- `GK_LAYOUTS` (R11, R12, decision D11): whether the 12 variants from general knowledge are admitted. -/
inductive GkLayouts where
  | on
  | off
deriving DecidableEq, Repr

/-- `ERROR_SELECT` (R11, R207, decision D6): which of several violations is reported. `specOrder` is the order
of R206, the default. `free k` is the `k`-th of the choices the spec leaves open: its value is
`Config.freeChoice k`, about which nothing can be proved but that it picks a member. -/
inductive ErrorSelect where
  | specOrder
  | free (k : Nat)
deriving DecidableEq, Repr

/-- `IMAGE_BYTE_ORDER` (R11, decision D14): how a CALLER serialises a word. The spec leaves it open. -/
inductive ImageByteOrder where
  | littleEndian
  | bigEndian
deriving DecidableEq, Repr

/-- The parameters of R11. -/
structure Config where
  andOpcode : AndOpcode
  jsrRange : JsrRange
  unsignedFields : UnsignedFields
  gkLayouts : GkLayouts
  errorSelect : ErrorSelect
  /-- `IN_WIDTH` (R11, decision D3): the width of a physical realisation's operand buses; `none` is the
  model's unbounded integers, the default. -/
  inWidth : Option Nat
deriving DecidableEq, Repr

/-- The defaults of R11's table. -/
def Config.default : Config :=
  { andOpcode := .lc3b
    jsrRange := .nine
    unsignedFields := .unsigned
    gkLayouts := .on
    errorSelect := .specOrder
    inWidth := none }

/-- The legal values of R11: the enumerations are legal by their types; `IN_WIDTH` is at least 12. -/
def Config.wf (c : Config) : Bool :=
  match c.inWidth with
  | none => true
  | some w => decide (12 ≤ w)

/-- FREE VALUE (R207, decision D6, log entry 3): the index, into the violations that apply to a request, of the
one that the `k`-th open `ERROR_SELECT` reports. It has no body a proof can see. -/
opaque Config.freeChoice : Nat → List InvalidOperand → Nat

end Sys2Proof
end

