-- ==== Sys2Proof/Machine/Operands.lean ====
section
/-! DEFINITION. The primitives of 00_scope.md R13 and R15 that every rule is written in, the operand fields of a
request and of a validated descriptor (R16, R28, R200), the slots of each variant (60_exceptions.md R203), and the
admitted range of every field (R204, R205; 30_encoding.md R70). -/

namespace Sys2Proof

/-! ## Primitives (R13, R15) -/

/-- `mask_N(v)`: `v mod 2^N` in `[0, 2^N - 1]` (Euclidean remainder), the two's-complement pattern of a
negative `v`. -/
def mask (N : Nat) (v : Int) : Nat := (v % ((2 ^ N : Nat) : Int)).toNat

/-- `place(v, N, p)`: the value `v` packed into bits `[p+N-1:p]` (R15, R62). -/
def place (v : Int) (N p : Nat) : Nat := mask N v <<< p

/-- `bit(b)`. -/
def bit (b : Bool) : Nat := if b then 1 else 0

/-- `w[hi:lo]` (R13): bits `hi` down to `lo`, read as an unsigned number. -/
def field (w : Word16) (hi lo : Nat) : Nat := (w.toNat >>> lo) % 2 ^ (hi - lo + 1)

/-- `sext_N(u)`. -/
def sext (N : Nat) (u : Nat) : Int := if u < 2 ^ (N - 1) then (u : Int) else (u : Int) - ((2 ^ N : Nat) : Int)

/-- `zext_N(u)`: `u` itself. -/
def zext (_N : Nat) (u : Nat) : Int := (u : Int)

/-- `inReg(v)`. -/
abbrev inReg (v : Int) : Prop := 0 ≤ v ∧ v ≤ 7

/-- `inS(N, v)`. -/
abbrev inS (N : Nat) (v : Int) : Prop := -((2 ^ (N - 1) : Nat) : Int) ≤ v ∧ v ≤ ((2 ^ (N - 1) : Nat) : Int) - 1

/-- `inU(N, v)`. -/
abbrev inU (N : Nat) (v : Int) : Prop := 0 ≤ v ∧ v ≤ ((2 ^ N : Nat) : Int) - 1

/-! ## The parameters as numbers (R11) -/

/-- The opcode of AND (R73). -/
def AndOpcode.bits : AndOpcode → Nat
  | .lc3b => 0b0101
  | .sourceTable => 0b0011

/-- The width whose signed range JSR's offset must lie in (R161). -/
def JsrRange.bits : JsrRange → Nat
  | .nine => 9
  | .eleven => 11

/-- The range rule of an unsigned field of `N` bits (R30): `inU` by default, `inS` under `signed`. -/
abbrev inUnsignedField (u : UnsignedFields) (N : Nat) (v : Int) : Prop :=
  (u = .unsigned ∧ inU N v) ∨ (u = .signed ∧ inS N v)

/-- Is the tag admitted? ADD, AND, BR and JMP always, the other twelve when `GK_LAYOUTS = on` (R12, R202). -/
def tagAdmitted (c : Config) : VariantTag → Bool
  | .ADD => true
  | .AND => true
  | .BR => true
  | .JMP => true
  | .NOT | .XOR | .SHF | .LEA | .LDW | .STW | .LDB | .STB | .JSR | .JSRR | .TRAP | .RTI =>
    decide (c.gkLayouts = .on)

/-! ## The fields of a request (R16, R200) -/

/-- `FieldOrder` of R206. -/
def fieldOrder : List FieldName :=
  [.dr, .sr, .sr1, .sr2, .base_r, .imm5, .n, .z, .p, .pc_offset, .offset6, .boffset6, .amount4, .shift_type,
    .trapvect8]

/-- The value a request carries in a field, `none` when the field is absent (`present(f)` of R15). -/
def RawDescriptor.get (r : RawDescriptor) : FieldName → Option Value
  | .dr => r.dr.map .int
  | .sr => r.sr.map .int
  | .sr1 => r.sr1.map .int
  | .sr2 => r.sr2.map .int
  | .base_r => r.base_r.map .int
  | .imm5 => r.imm5.map .int
  | .n => r.n.map .bool
  | .z => r.z.map .bool
  | .p => r.p.map .bool
  | .pc_offset => r.pc_offset.map .int
  | .offset6 => r.offset6.map .int
  | .boffset6 => r.boffset6.map .int
  | .amount4 => r.amount4.map .int
  | .shift_type => r.shift_type.map .shift
  | .trapvect8 => r.trapvect8.map .int

/-- The register-reference fields (10_state.md R21). -/
def FieldName.isRegister : FieldName → Bool
  | .dr | .sr | .sr1 | .sr2 | .base_r => true
  | .imm5 | .n | .z | .p | .pc_offset | .offset6 | .boffset6 | .amount4 | .shift_type | .trapvect8 => false

/-- The numeric fields that carry an immediate, an offset, an amount or a vector (R205). -/
def FieldName.isNumeric : FieldName → Bool
  | .imm5 | .pc_offset | .offset6 | .boffset6 | .amount4 | .trapvect8 => true
  | .dr | .sr | .sr1 | .sr2 | .base_r | .n | .z | .p | .shift_type => false

/-! ## Slots (R203) -/

/-- The ordered slots of each variant, the table of R203. -/
def slots : VariantTag → List Slot
  | .ADD => [.single .dr, .single .sr1, .pair .sr2 .imm5]
  | .AND => [.single .dr, .single .sr1, .pair .sr2 .imm5]
  | .XOR => [.single .dr, .single .sr1, .pair .sr2 .imm5]
  | .BR => [.single .n, .single .z, .single .p, .single .pc_offset]
  | .JMP => [.single .base_r]
  | .NOT => [.single .dr, .single .sr]
  | .SHF => [.single .dr, .single .sr, .single .shift_type, .single .amount4]
  | .LEA => [.single .dr, .single .pc_offset]
  | .LDW => [.single .dr, .single .base_r, .single .offset6]
  | .STW => [.single .sr, .single .base_r, .single .offset6]
  | .LDB => [.single .dr, .single .base_r, .single .boffset6]
  | .STB => [.single .sr, .single .base_r, .single .boffset6]
  | .JSR => [.single .pc_offset]
  | .JSRR => [.single .base_r]
  | .TRAP => [.single .trapvect8]
  | .RTI => []

/-- The fields of a slot, in order. -/
def Slot.fields : Slot → List FieldName
  | .single f => [f]
  | .pair a b => [a, b]

/-- The fields a variant may carry: those of its slots. -/
def slotFields (t : VariantTag) : List FieldName := (slots t).flatMap Slot.fields

/-! ## Ranges (R204, R205) -/

/-- Is an integer in the admitted range of a field of a variant? Booleans and `shift_type` are typed and have no
range (R205). -/
def inFieldRange (c : Config) (t : VariantTag) (v : Int) : FieldName → Bool
  | .dr | .sr | .sr1 | .sr2 | .base_r => decide (inReg v)
  | .imm5 => decide (inS 5 v)
  | .pc_offset =>
    match t with
    | .JSR => decide (inS c.jsrRange.bits v)
    | _ => decide (inS 9 v)
  | .offset6 => decide (inS 6 v)
  | .boffset6 => decide (inS 6 v)
  | .amount4 => decide (inUnsignedField c.unsignedFields 4 v)
  | .trapvect8 => decide (inUnsignedField c.unsignedFields 8 v)
  | .n | .z | .p | .shift_type => true

/-! ## The operands of a validated descriptor (R28) -/

/-- The variant a form belongs to. -/
def Instr.variant : Instr → VariantTag
  | .addReg _ _ _ => .ADD
  | .addImm _ _ _ => .ADD
  | .andReg _ _ _ => .AND
  | .andImm _ _ _ => .AND
  | .br _ _ _ _ => .BR
  | .jmp _ => .JMP
  | .notReg _ _ => .NOT
  | .xorReg _ _ _ => .XOR
  | .xorImm _ _ _ => .XOR
  | .lshf _ _ _ => .SHF
  | .rshfl _ _ _ => .SHF
  | .rshfa _ _ _ => .SHF
  | .lea _ _ => .LEA
  | .ldw _ _ _ => .LDW
  | .stw _ _ _ => .STW
  | .ldb _ _ _ => .LDB
  | .stb _ _ _ => .STB
  | .jsr _ => .JSR
  | .jsrr _ => .JSRR
  | .trap _ => .TRAP
  | .rti => .RTI

/-- The request that presents a validated descriptor again (10_state.md R31, decision D25): its tag and exactly its
fields. -/
def Instr.toRaw : Instr → RawDescriptor
  | .addReg dr sr1 sr2 => { tag := .admitted .ADD, dr := some dr, sr1 := some sr1, sr2 := some sr2 }
  | .addImm dr sr1 imm5 => { tag := .admitted .ADD, dr := some dr, sr1 := some sr1, imm5 := some imm5 }
  | .andReg dr sr1 sr2 => { tag := .admitted .AND, dr := some dr, sr1 := some sr1, sr2 := some sr2 }
  | .andImm dr sr1 imm5 => { tag := .admitted .AND, dr := some dr, sr1 := some sr1, imm5 := some imm5 }
  | .br n z p off => { tag := .admitted .BR, n := some n, z := some z, p := some p, pc_offset := some off }
  | .jmp b => { tag := .admitted .JMP, base_r := some b }
  | .notReg dr sr => { tag := .admitted .NOT, dr := some dr, sr := some sr }
  | .xorReg dr sr1 sr2 => { tag := .admitted .XOR, dr := some dr, sr1 := some sr1, sr2 := some sr2 }
  | .xorImm dr sr1 imm5 => { tag := .admitted .XOR, dr := some dr, sr1 := some sr1, imm5 := some imm5 }
  | .lshf dr sr a =>
    { tag := .admitted .SHF, dr := some dr, sr := some sr, shift_type := some .LSHF, amount4 := some a }
  | .rshfl dr sr a =>
    { tag := .admitted .SHF, dr := some dr, sr := some sr, shift_type := some .RSHFL, amount4 := some a }
  | .rshfa dr sr a =>
    { tag := .admitted .SHF, dr := some dr, sr := some sr, shift_type := some .RSHFA, amount4 := some a }
  | .lea dr off => { tag := .admitted .LEA, dr := some dr, pc_offset := some off }
  | .ldw dr b off => { tag := .admitted .LDW, dr := some dr, base_r := some b, offset6 := some off }
  | .stw sr b off => { tag := .admitted .STW, sr := some sr, base_r := some b, offset6 := some off }
  | .ldb dr b off => { tag := .admitted .LDB, dr := some dr, base_r := some b, boffset6 := some off }
  | .stb sr b off => { tag := .admitted .STB, sr := some sr, base_r := some b, boffset6 := some off }
  | .jsr off => { tag := .admitted .JSR, pc_offset := some off }
  | .jsrr b => { tag := .admitted .JSRR, base_r := some b }
  | .trap v => { tag := .admitted .TRAP, trapvect8 := some v }
  | .rti => { tag := .admitted .RTI }

/-! ## The operand buses of a physical realisation (`IN_WIDTH`, decision D3) -/

/-- Does an integer fit a two's-complement bus of the configured width? Every integer fits an unbounded one. -/
def fitsBus (c : Config) (v : Int) : Bool :=
  match c.inWidth with
  | none => true
  | some w => decide (inS w v)

/-- Does every integer a request carries fit the operand buses? A request that does not never reaches the block. -/
def RawDescriptor.fits (c : Config) (r : RawDescriptor) : Bool :=
  fieldOrder.all fun f =>
    match r.get f with
    | some (.int v) => fitsBus c v
    | some (.bool _) => true
    | some (.shift _) => true
    | some (.tag _) => true
    | none => true

end Sys2Proof
end

