-- ==== Sys2Proof/WellFormed.lean ====
section
/-! DEFINITION. When a value of `Instr` is a validated descriptor (10_state.md R28 to R30): its variant is admitted
and every operand satisfies the range predicate of its type in R28. -/

namespace Sys2Proof

/-- The ranges of R28, field by field, under the parameters of R11. -/
def Instr.operandsInRange (c : Config) : Instr → Bool
  | .addReg dr sr1 sr2 => decide (inReg dr) && decide (inReg sr1) && decide (inReg sr2)
  | .addImm dr sr1 imm5 => decide (inReg dr) && decide (inReg sr1) && decide (inS 5 imm5)
  | .andReg dr sr1 sr2 => decide (inReg dr) && decide (inReg sr1) && decide (inReg sr2)
  | .andImm dr sr1 imm5 => decide (inReg dr) && decide (inReg sr1) && decide (inS 5 imm5)
  | .br _ _ _ off => decide (inS 9 off)
  | .jmp b => decide (inReg b)
  | .notReg dr sr => decide (inReg dr) && decide (inReg sr)
  | .xorReg dr sr1 sr2 => decide (inReg dr) && decide (inReg sr1) && decide (inReg sr2)
  | .xorImm dr sr1 imm5 => decide (inReg dr) && decide (inReg sr1) && decide (inS 5 imm5)
  | .lshf dr sr a => decide (inReg dr) && decide (inReg sr) && decide (inUnsignedField c.unsignedFields 4 a)
  | .rshfl dr sr a => decide (inReg dr) && decide (inReg sr) && decide (inUnsignedField c.unsignedFields 4 a)
  | .rshfa dr sr a => decide (inReg dr) && decide (inReg sr) && decide (inUnsignedField c.unsignedFields 4 a)
  | .lea dr off => decide (inReg dr) && decide (inS 9 off)
  | .ldw dr b off => decide (inReg dr) && decide (inReg b) && decide (inS 6 off)
  | .stw sr b off => decide (inReg sr) && decide (inReg b) && decide (inS 6 off)
  | .ldb dr b off => decide (inReg dr) && decide (inReg b) && decide (inS 6 off)
  | .stb sr b off => decide (inReg sr) && decide (inReg b) && decide (inS 6 off)
  | .jsr off => decide (inS c.jsrRange.bits off)
  | .jsrr b => decide (inReg b)
  | .trap v => decide (inUnsignedField c.unsignedFields 8 v)
  | .rti => true

/-- A validated descriptor under a configuration (R28, R29). -/
def Instr.wellFormed (c : Config) (i : Instr) : Bool := tagAdmitted c i.variant && i.operandsInRange c

end Sys2Proof
end

