-- ==== Sys2Proof/Decode.lean ====
section
/-! DEFINITION. A decoder of the encoder's output words and, after it, the encoder read off the table of forms.
The block itself has no decoder (00_scope.md R7); 30_encoding.md R72 says one "can be written from that table
alone". The decoder dispatches on the opcode map of R72 and the formats of R71. The encoder below is written from
the other presentation, the match, mask and field positions of opcode_table.json, and the meanings of
Machine/ from a third, the pseudocode of each variant's rule, so that the three check one another. -/

namespace Sys2Proof

/-! ## Decoding -/

/-- Why a word is no output of the encoder (R75), by name. -/
inductive DecodeError where
  /-- No admitted form has this opcode (1010 and 1011 always, R72; 0101 when AND's opcode is 0011). -/
  | unassignedOpcode (opcode : Nat)
  /-- A fixed bit of the variant's format is wrong (R74). -/
  | fixedBits (t : VariantTag)
  /-- Bits [5:4] of an SHF word are 0b10, the pattern no shift kind has (R124). -/
  | noShiftKind
  /-- The offset read lies outside the range its field admits (JSR at `JSR_RANGE_BITS = 9`, R161). -/
  | operandOutOfRange (t : VariantTag)
  /-- The word is one of a variant that is not admitted (R12). -/
  | notAdmitted (t : VariantTag)
  /-- Fewer than two bytes are left. -/
  | truncated
deriving DecidableEq, Repr

/-- A 3-bit register field at bit `lo` (R64). -/
def readReg (w : Word16) (lo : Nat) : Int := zext 3 (field w (lo + 2) lo)

/-- A signed field in bits `[N-1:0]` (R68). -/
def readSigned (w : Word16) (N : Nat) : Int := sext N (field w (N - 1) 0)

/-- An unsigned field in bits `[N-1:0]`, read as the range rule in force packed it (R69). -/
def readUnsigned (c : Config) (w : Word16) (N : Nat) : Int :=
  match c.unsignedFields with
  | .unsigned => zext N (field w (N - 1) 0)
  | .signed => sext N (field w (N - 1) 0)

/-- Is bit `k` set? -/
def readBit (w : Word16) (k : Nat) : Bool := field w k k == 1

/-- Formats RR and RI (R71): bit 5 chooses the form (R66), and bits [4:3] of the register form are zero. -/
def readOperate (t : VariantTag) (reg imm : Int → Int → Int → Instr) (w : Word16) : Except DecodeError Instr :=
  if field w 5 5 = 1 then .ok (imm (readReg w 9) (readReg w 6) (readSigned w 5))
  else if field w 4 3 = 0 then .ok (reg (readReg w 9) (readReg w 6) (readReg w 0))
  else .error (.fixedBits t)

/-- Format MEM (R71): a register in [11:9], `base_r` in [8:6], a signed offset in [5:0]. -/
def readMem (mk : Int → Int → Int → Instr) (w : Word16) : Instr := mk (readReg w 9) (readReg w 6) (readSigned w 6)

/-- Opcode 0100 (R72): JSR when bit 11 is set, else JSRR with its fixed zero bits (R74). -/
def readJsr (w : Word16) : Except DecodeError Instr :=
  if readBit w 11 then .ok (.jsr (readSigned w 11))
  else if field w 10 9 = 0 ∧ field w 5 0 = 0 then .ok (.jsrr (readReg w 6))
  else .error (.fixedBits .JSRR)

/-- Opcode 1101: the shift kind in bits [5:4] (R124). -/
def readShf (c : Config) (w : Word16) : Except DecodeError Instr :=
  match field w 5 4 with
  | 0 => .ok (.lshf (readReg w 9) (readReg w 6) (readUnsigned c w 4))
  | 1 => .ok (.rshfl (readReg w 9) (readReg w 6) (readUnsigned c w 4))
  | 3 => .ok (.rshfa (readReg w 9) (readReg w 6) (readUnsigned c w 4))
  | _ => .error .noShiftKind

/-- Opcode 1001: NOT and XOR share it. `1001 ddd sss 111111` is both NOT and XOR with imm5 = -1 (R76); it is read
as NOT, the row with more fixed bits (DESIGN CHOICE, log entry 6). -/
def readXor (w : Word16) : Except DecodeError Instr :=
  if field w 5 0 = 63 then .ok (.notReg (readReg w 9) (readReg w 6)) else readOperate .XOR .xorReg .xorImm w

/-- Opcode 0011: STB, and AND too when `AND_OPCODE = 0b0011` (R73). A word both forms give is read as AND, the row
with more fixed bits (DESIGN CHOICE, log entry 6). -/
def readOpcode3 (c : Config) (w : Word16) : Except DecodeError Instr :=
  match c.andOpcode with
  | .lc3b => .ok (readMem .stb w)
  | .sourceTable =>
    match readOperate .AND .andReg .andImm w with
    | .ok i => .ok i
    | .error _ => .ok (readMem .stb w)

/-- The opcode map of R72. -/
def readForm (c : Config) (w : Word16) : Except DecodeError Instr :=
  match field w 15 12 with
  | 0b0000 => .ok (.br (readBit w 11) (readBit w 10) (readBit w 9) (readSigned w 9))
  | 0b0001 => readOperate .ADD .addReg .addImm w
  | 0b0010 => .ok (readMem .ldb w)
  | 0b0011 => readOpcode3 c w
  | 0b0100 => readJsr w
  | 0b0101 =>
    match c.andOpcode with
    | .lc3b => readOperate .AND .andReg .andImm w
    | .sourceTable => .error (.unassignedOpcode 0b0101)
  | 0b0110 => .ok (readMem .ldw w)
  | 0b0111 => .ok (readMem .stw w)
  | 0b1000 => if field w 11 0 = 0 then .ok .rti else .error (.fixedBits .RTI)
  | 0b1001 => readXor w
  | 0b1100 => if field w 11 9 = 0 ∧ field w 5 0 = 0 then .ok (.jmp (readReg w 6)) else .error (.fixedBits .JMP)
  | 0b1101 => readShf c w
  | 0b1110 => .ok (.lea (readReg w 9) (readSigned w 9))
  | 0b1111 => if field w 11 8 = 0 then .ok (.trap (readUnsigned c w 8)) else .error (.fixedBits .TRAP)
  | op => .error (.unassignedOpcode op)

/-- The decoder: total on any word; it answers only validated descriptors. -/
def decode (c : Config) (w : Word16) : Except DecodeError Instr :=
  match readForm c w with
  | .error e => .error e
  | .ok i =>
    if tagAdmitted c i.variant then
      if i.operandsInRange c then .ok i else .error (.operandOutOfRange i.variant)
    else .error (.notAdmitted i.variant)

/-! ## The table of forms and the encoder -/

/-- The 21 forms, one per row of opcode_table.json. -/
inductive Form where
  | ADD | ADD_imm | AND | AND_imm | BR | JMP
  | NOT | XOR | XOR_imm | LSHF | RSHFL | RSHFA
  | LEA | LDW | STW | LDB | STB
  | JSR | JSRR | TRAP | RTI
deriving DecidableEq, Repr

/-- The form of a validated descriptor. -/
def Instr.form : Instr → Form
  | .addReg _ _ _ => .ADD
  | .addImm _ _ _ => .ADD_imm
  | .andReg _ _ _ => .AND
  | .andImm _ _ _ => .AND_imm
  | .br _ _ _ _ => .BR
  | .jmp _ => .JMP
  | .notReg _ _ => .NOT
  | .xorReg _ _ _ => .XOR
  | .xorImm _ _ _ => .XOR_imm
  | .lshf _ _ _ => .LSHF
  | .rshfl _ _ _ => .RSHFL
  | .rshfa _ _ _ => .RSHFA
  | .lea _ _ => .LEA
  | .ldw _ _ _ => .LDW
  | .stw _ _ _ => .STW
  | .ldb _ _ _ => .LDB
  | .stb _ _ _ => .STB
  | .jsr _ => .JSR
  | .jsrr _ => .JSRR
  | .trap _ => .TRAP
  | .rti => .RTI

/-- A field's bit range in a row. -/
structure FieldPos where
  name : FieldName
  hi : Nat
  lo : Nat
deriving DecidableEq, Repr

/-- A row of opcode_table.json: the base pattern (`match`), its mask, and the operand fields (R61). -/
structure Row where
  pattern : Word16
  mask : Word16
  fields : List FieldPos
deriving DecidableEq, Repr

/-- AND's base pattern: the opcode parameter in bits [15:12] (R104). -/
def andBase (c : Config) : Word16 := BitVec.ofNat 16 c.andOpcode.bits <<< 12

/-- opcode_table.json, row by row; AND's `match` follows `AND_OPCODE` (R73). -/
def row (c : Config) : Form → Row
  | .ADD => ⟨0x1000#16, 0xF038#16, [⟨.dr, 11, 9⟩, ⟨.sr1, 8, 6⟩, ⟨.sr2, 2, 0⟩]⟩
  | .ADD_imm => ⟨0x1020#16, 0xF020#16, [⟨.dr, 11, 9⟩, ⟨.sr1, 8, 6⟩, ⟨.imm5, 4, 0⟩]⟩
  | .AND => ⟨andBase c, 0xF038#16, [⟨.dr, 11, 9⟩, ⟨.sr1, 8, 6⟩, ⟨.sr2, 2, 0⟩]⟩
  | .AND_imm => ⟨andBase c ||| 0x0020#16, 0xF020#16, [⟨.dr, 11, 9⟩, ⟨.sr1, 8, 6⟩, ⟨.imm5, 4, 0⟩]⟩
  | .BR => ⟨0x0000#16, 0xF000#16, [⟨.n, 11, 11⟩, ⟨.z, 10, 10⟩, ⟨.p, 9, 9⟩, ⟨.pc_offset, 8, 0⟩]⟩
  | .JMP => ⟨0xC000#16, 0xFE3F#16, [⟨.base_r, 8, 6⟩]⟩
  | .NOT => ⟨0x903F#16, 0xF03F#16, [⟨.dr, 11, 9⟩, ⟨.sr, 8, 6⟩]⟩
  | .XOR => ⟨0x9000#16, 0xF038#16, [⟨.dr, 11, 9⟩, ⟨.sr1, 8, 6⟩, ⟨.sr2, 2, 0⟩]⟩
  | .XOR_imm => ⟨0x9020#16, 0xF020#16, [⟨.dr, 11, 9⟩, ⟨.sr1, 8, 6⟩, ⟨.imm5, 4, 0⟩]⟩
  | .LSHF => ⟨0xD000#16, 0xF030#16, [⟨.dr, 11, 9⟩, ⟨.sr, 8, 6⟩, ⟨.amount4, 3, 0⟩]⟩
  | .RSHFL => ⟨0xD010#16, 0xF030#16, [⟨.dr, 11, 9⟩, ⟨.sr, 8, 6⟩, ⟨.amount4, 3, 0⟩]⟩
  | .RSHFA => ⟨0xD030#16, 0xF030#16, [⟨.dr, 11, 9⟩, ⟨.sr, 8, 6⟩, ⟨.amount4, 3, 0⟩]⟩
  | .LEA => ⟨0xE000#16, 0xF000#16, [⟨.dr, 11, 9⟩, ⟨.pc_offset, 8, 0⟩]⟩
  | .LDW => ⟨0x6000#16, 0xF000#16, [⟨.dr, 11, 9⟩, ⟨.base_r, 8, 6⟩, ⟨.offset6, 5, 0⟩]⟩
  | .STW => ⟨0x7000#16, 0xF000#16, [⟨.sr, 11, 9⟩, ⟨.base_r, 8, 6⟩, ⟨.offset6, 5, 0⟩]⟩
  | .LDB => ⟨0x2000#16, 0xF000#16, [⟨.dr, 11, 9⟩, ⟨.base_r, 8, 6⟩, ⟨.boffset6, 5, 0⟩]⟩
  | .STB => ⟨0x3000#16, 0xF000#16, [⟨.sr, 11, 9⟩, ⟨.base_r, 8, 6⟩, ⟨.boffset6, 5, 0⟩]⟩
  | .JSR => ⟨0x4800#16, 0xF800#16, [⟨.pc_offset, 10, 0⟩]⟩
  | .JSRR => ⟨0x4000#16, 0xFE3F#16, [⟨.base_r, 8, 6⟩]⟩
  | .TRAP => ⟨0xF000#16, 0xFF00#16, [⟨.trapvect8, 7, 0⟩]⟩
  | .RTI => ⟨0x8000#16, 0xFFFF#16, []⟩

/-- The operand a validated descriptor holds in a field, as an integer (a flag as `bit(b)`, R70). -/
def Instr.operand (i : Instr) (f : FieldName) : Int :=
  match i.toRaw.get f with
  | some (.int v) => v
  | some (.bool b) => (bit b : Int)
  | some (.shift _) => 0
  | some (.tag _) => 0
  | none => 0

/-- The bits a field range covers. -/
def FieldPos.mask (p : FieldPos) : Word16 := ((1#16 <<< (p.hi - p.lo + 1)) - 1#16) <<< p.lo

/-- `field_bits = (value & ((1 << width) - 1)) << position` (R62), on 16-bit words. -/
def FieldPos.bits (p : FieldPos) (v : Int) : Word16 := (BitVec.ofInt 16 v <<< p.lo) &&& p.mask

/-- `encode : Instruction -> Word16` (R19), total (R208): the row's base pattern with every field's bits combined
by OR (R63). -/
def encode (c : Config) (i : Instr) : Word16 :=
  (row c i.form).fields.foldl (fun w p => w ||| p.bits (i.operand p.name)) (row c i.form).pattern

/-- The descriptor the decoder answers for the word of `i`: `i` itself, but for the words two forms share (R73,
R76), where it is the form of the row with more fixed bits. -/
def Instr.canonical (c : Config) : Instr → Instr
  | .xorImm dr sr1 imm5 => if imm5 = -1 then .notReg dr sr1 else .xorImm dr sr1 imm5
  | .stb sr b off =>
    match c.andOpcode with
    | .lc3b => .stb sr b off
    | .sourceTable =>
      if off < 0 then .andImm sr b (sext 5 (Sys2Proof.mask 5 off))
      else if off ≤ 7 then .andReg sr b off
      else .stb sr b off
  | i => i

/-! ## The caller's bytes (20_memory.md R41, decision D14) -/

/-- A word as the two bytes of a caller's image, lowest address first, in the caller's byte order. -/
def wordBytes : ImageByteOrder → Word16 → List Byte
  | .littleEndian, w => [w.extractLsb' 0 8, w.extractLsb' 8 8]
  | .bigEndian, w => [w.extractLsb' 8 8, w.extractLsb' 0 8]

/-- The word of two bytes of a caller's image. -/
def bytesWord : ImageByteOrder → Byte → Byte → Word16
  | .littleEndian, b0, b1 => b1 ++ b0
  | .bigEndian, b0, b1 => b0 ++ b1

/-- Decode the next instruction of a caller's image and answer the bytes after it; total on any bytes. -/
def decodeBytes (c : Config) (o : ImageByteOrder) : List Byte → Except DecodeError (Instr × List Byte)
  | b0 :: b1 :: rest =>
    match decode c (bytesWord o b0 b1) with
    | .ok i => .ok (i, rest)
    | .error e => .error e
  | [_] => .error .truncated
  | [] => .error .truncated

/-! ## The host's entry -/

/-- The word of `nbits` bits numbered as opcode_table.json numbers them; every instruction is one 16-bit word (R60),
so bits above the word must be zero. -/
def tableWord (nbits w : Nat) : Option Word16 :=
  if w % 2 ^ nbits < 2 ^ 16 then some (BitVec.ofNat 16 (w % 2 ^ nbits)) else none

/-- The instruction the decoder reads from a table word, at the default parameters. -/
def decodeTableWord (nbits w : Nat) : Option Instr :=
  match tableWord nbits w with
  | some v =>
    match decode Config.default v with
    | .ok i => some i
    | .error _ => none
  | none => none

end Sys2Proof
end

