-- ==== Sys2Proof/Machine/State.lean ====
section
/-! DEFINITION. The machine around the encoder. The block holds no architectural state (10_state.md R20 to R27,
R32): no register, program counter, flag, memory, control register or buffer. What stands here is plain data of the
two kinds the spec gives instead: the parameters of the built block (00_scope.md R11), which no step changes (R25), and
its two ports (60_exceptions.md R200, R201), as the requests the caller presents and the responses the block has given.
The two lists are the environment's, not the block's (log entry 2). -/

namespace Sys2Proof.Machine

/-- The response to a request (R201): exactly one of a whole word and an error record. A refusal carries no word
(decision D26). -/
inductive Response where
  | ok (word : Word16)
  | err (e : InvalidOperand)
deriving DecidableEq, Repr

/-- Why the machine stops. -/
inductive Fault where
  /-- The step-5 assertion "the final value fits in 16 bits" (30_encoding.md R67) failed; raised by `emit` alone,
  never reached (93_implementation_defined.md I3). Safe: the machine stops. -/
  | assertionFailed (value : Nat)
deriving DecidableEq, Repr

/-- Why an instruction has no meaning. -/
inductive Refusal where
  /-- An arm of `exec` that is not modelled; no arm raises it. Safe: the machine stops. -/
  | notModelled (mnemonic : String)
deriving DecidableEq, Repr

/-- The encoder at work: its parameters, the requests presented to it and not yet served, in the order the caller
presents them, and the responses given so far, oldest first. -/
structure State where
  config : Config
  requests : List RawDescriptor
  responses : List Response
deriving DecidableEq, Repr

/-- Before the first request (R240 to R242): the parameters at their defaults (R11), no request presented, and
therefore no response (R241). -/
def State.reset : State :=
  { config := Config.default
    requests := []
    responses := [] }

end Sys2Proof.Machine
end

