-- ==== Sys2Proof/Machine/Ops.lean ====
section
/-! DEFINITION. The named operations over the ports: presenting and taking a request, answering it with a word
(`emit`) and refusing it (`raiseInvalid`, the block's one exception, 60_exceptions.md R214). There are no operations
over registers or memory, since the block has neither (10_state.md R20, 20_memory.md R40). -/

namespace Sys2Proof.Machine

/-- The caller presents a request (R200). A request whose values do not fit the operand buses never reaches the block
(decision D3). -/
def State.present (r : RawDescriptor) (s : State) : State :=
  if r.fits s.config then { s with requests := s.requests ++ [r] } else s

/-- The response to the request being served is given (R201). -/
def State.respond (x : Response) (s : State) : State := { s with responses := s.responses ++ [x] }

/-- Step 5 of the bit-layout algorithm (R67): the combined value is the encoded word, under the assertion that it fits
in 16 bits. -/
def emit (value : Nat) (s : State) : Host.Outcome State Fault Refusal :=
  if value < 2 ^ 16 then .next (s.respond (.ok (BitVec.ofNat 16 value))) else .fault (.assertionFailed value)

/-- Taking an exception (R209, R214): the whole effect is the response `err e`; nothing is saved, no mode changes and
control goes nowhere. There is no return operation (R215): the next request is served as if this one had not been
made. -/
def raiseInvalid (e : InvalidOperand) (s : State) : Host.Outcome State Fault Refusal := .next (s.respond (.err e))

/-! ## The response as a physical realisation's buses (R201, R211) -/

/-- The bit `ok`. -/
def Response.okBit : Response → Bool
  | .ok _ => true
  | .err _ => false

/-- `word_out[15:0]`: no value when the request is refused (decision D26). -/
def Response.wordOut : Response → Option Word16
  | .ok w => some w
  | .err _ => none

/-- The code of a constraint kind (R211). -/
def kindCode : ConstraintKind → Nat
  | .MissingField => 1
  | .BothExclusivePresent => 2
  | .NeitherExclusivePresent => 3
  | .RegisterOutOfRange => 4
  | .ImmediateOutOfRange => 5
  | .UnexpectedField => 6
  | .UnknownVariant => 7

/-- `err_kind`, the code of R211. -/
def Response.errKind : Response → Option Nat
  | .ok _ => none
  | .err e => some (kindCode e.kind)

/-- `err_field`: the offending fields. -/
def Response.errField : Response → Option (List FieldName)
  | .ok _ => none
  | .err e => some e.fields

/-- `err_value`: the offending value, where the record carries one. -/
def Response.errValue : Response → Option Value
  | .ok _ => none
  | .err e => e.value

end Sys2Proof.Machine
end

