-- ==== Sys2Proof/Machine/Construct.lean ====
section
/-! DEFINITION. Construction, the validation stage (60_exceptions.md R202 to R207): the set of violations `V(raw)` that
apply to a request, which of them is reported, and the validated descriptor a request without violations yields. The
algorithm of R206 is written out beside it (`constructInOrder`), from its own text. -/

namespace Sys2Proof.Machine

/-! ## The violations that apply (R202 to R205) -/

/-- R202: the tag is not admitted. -/
def unknownVariant (t : Tag) : InvalidOperand := ⟨.UnknownVariant, [], some (.tag t)⟩

/-- R203: a field is present that is in none of the variant's slots. -/
def unexpectedAt (t : VariantTag) (r : RawDescriptor) (f : FieldName) : Option InvalidOperand :=
  match r.get f with
  | none => none
  | some v => if f ∈ slotFields t then none else some ⟨.UnexpectedField, [f], some v⟩

/-- R203: the presence violation of a slot, if any. -/
def presenceAt (r : RawDescriptor) : Slot → Option InvalidOperand
  | .single f => if (r.get f).isSome then none else some ⟨.MissingField, [f], none⟩
  | .pair a b =>
    match (r.get a).isSome, (r.get b).isSome with
    | true, true => some ⟨.BothExclusivePresent, [a, b], none⟩
    | false, false => some ⟨.NeitherExclusivePresent, [a, b], none⟩
    | true, false => none
    | false, true => none

/-- R204 and R205: the range violation of a present field, if any. -/
def rangeAt (c : Config) (t : VariantTag) (r : RawDescriptor) (f : FieldName) : Option InvalidOperand :=
  match r.get f with
  | some (.int v) =>
    if inFieldRange c t v f then none
    else if f.isRegister then some ⟨.RegisterOutOfRange, [f], some (.int v)⟩
    else some ⟨.ImmediateOutOfRange, [f], some (.int v)⟩
  | some (.bool _) => none
  | some (.shift _) => none
  | some (.tag _) => none
  | none => none

/-- `V(raw)` (R207), listed in the order of R206: unexpected fields in field order, then presence, then ranges, each in
slot order. When R202 applies it is that violation alone. -/
def violations (c : Config) (r : RawDescriptor) : List InvalidOperand :=
  match r.tag with
  | .other k => [unknownVariant (.other k)]
  | .admitted t =>
    if tagAdmitted c t then
      fieldOrder.filterMap (unexpectedAt t r) ++ (slots t).filterMap (presenceAt r) ++
        (slotFields t).filterMap (rangeAt c t r)
    else [unknownVariant (.admitted t)]

/-- `ERROR_SELECT` on a non-empty set of violations, given as its first and its other members (R207): the first under
R206's order, or the member at a free index (log entry 3). -/
def selectViolation (c : Config) (e : InvalidOperand) (es : List InvalidOperand) : InvalidOperand :=
  match c.errorSelect with
  | .specOrder => e
  | .free k => (e :: es).getD (Config.freeChoice k (e :: es) % (e :: es).length) e

/-! ## The descriptor of a request without violations (R206's last line) -/

/-- The value of a required field. -/
def need {α : Type} (f : FieldName) (x : Option α) : Except InvalidOperand α :=
  match x with
  | some v => .ok v
  | none => .error ⟨.MissingField, [f], none⟩

/-- The inner choice of ADD, AND and XOR: exactly one of `sr2` and `imm5` (R102). -/
def needOp2 (r : RawDescriptor) : Except InvalidOperand Op2 :=
  match r.sr2, r.imm5 with
  | some v, none => .ok (.reg v)
  | none, some v => .ok (.imm v)
  | some _, some _ => .error ⟨.BothExclusivePresent, [.sr2, .imm5], none⟩
  | none, none => .error ⟨.NeitherExclusivePresent, [.sr2, .imm5], none⟩

/-- ADD, AND or XOR with its two forms. -/
def buildOperate (reg imm : Int → Int → Int → Instr) (r : RawDescriptor) : Except InvalidOperand Instr := do
  let dr ← need .dr r.dr
  let sr1 ← need .sr1 r.sr1
  let o ← needOp2 r
  match o with
  | .reg sr2 => .ok (reg dr sr1 sr2)
  | .imm imm5 => .ok (imm dr sr1 imm5)

/-- SHF with its three kinds (R123). -/
def shfForm (dr sr : Int) (kind : ShiftType) (amount4 : Int) : Instr :=
  match kind with
  | .LSHF => .lshf dr sr amount4
  | .RSHFL => .rshfl dr sr amount4
  | .RSHFA => .rshfa dr sr amount4

/-- The validated descriptor built from the present fields of a request with an admitted tag (R206, R28). -/
def build (t : VariantTag) (r : RawDescriptor) : Except InvalidOperand Instr :=
  match t with
  | .ADD => buildOperate .addReg .addImm r
  | .AND => buildOperate .andReg .andImm r
  | .XOR => buildOperate .xorReg .xorImm r
  | .BR => do
    let n ← need .n r.n
    let z ← need .z r.z
    let p ← need .p r.p
    let off ← need .pc_offset r.pc_offset
    .ok (.br n z p off)
  | .JMP => do
    let b ← need .base_r r.base_r
    .ok (.jmp b)
  | .NOT => do
    let dr ← need .dr r.dr
    let sr ← need .sr r.sr
    .ok (.notReg dr sr)
  | .SHF => do
    let dr ← need .dr r.dr
    let sr ← need .sr r.sr
    let kind ← need .shift_type r.shift_type
    let a ← need .amount4 r.amount4
    .ok (shfForm dr sr kind a)
  | .LEA => do
    let dr ← need .dr r.dr
    let off ← need .pc_offset r.pc_offset
    .ok (.lea dr off)
  | .LDW => do
    let dr ← need .dr r.dr
    let b ← need .base_r r.base_r
    let off ← need .offset6 r.offset6
    .ok (.ldw dr b off)
  | .STW => do
    let sr ← need .sr r.sr
    let b ← need .base_r r.base_r
    let off ← need .offset6 r.offset6
    .ok (.stw sr b off)
  | .LDB => do
    let dr ← need .dr r.dr
    let b ← need .base_r r.base_r
    let off ← need .boffset6 r.boffset6
    .ok (.ldb dr b off)
  | .STB => do
    let sr ← need .sr r.sr
    let b ← need .base_r r.base_r
    let off ← need .boffset6 r.boffset6
    .ok (.stb sr b off)
  | .JSR => do
    let off ← need .pc_offset r.pc_offset
    .ok (.jsr off)
  | .JSRR => do
    let b ← need .base_r r.base_r
    .ok (.jsrr b)
  | .TRAP => do
    let v ← need .trapvect8 r.trapvect8
    .ok (.trap v)
  | .RTI => .ok .rti

/-- The descriptor of a request; a tag that has no constructor gives none (R202). -/
def buildRequest (r : RawDescriptor) : Except InvalidOperand Instr :=
  match r.tag with
  | .admitted t => build t r
  | .other k => .error (unknownVariant (.other k))

/-- `construct : RawDescriptor -> Except InvalidOperand Instruction` (R19), as R207 makes it normative: it succeeds
exactly when no violation applies, and otherwise reports the one `ERROR_SELECT` picks. -/
def construct (c : Config) (r : RawDescriptor) : Except InvalidOperand Instr :=
  match violations c r with
  | [] => buildRequest r
  | e :: es => .error (selectViolation c e es)

/-! ## The algorithm of R206, from its own text -/

/-- Run a check over a list, in order, and raise the first violation it finds. -/
def checkEach {α : Type} (check : α → Option InvalidOperand) : List α → Except InvalidOperand Unit
  | [] => .ok ()
  | x :: xs =>
    match check x with
    | some e => .error e
    | none => checkEach check xs

/-- The range phase of R206 on one slot: the present field of the slot. -/
def slotRangeCheck (c : Config) (t : VariantTag) (r : RawDescriptor) (s : Slot) : Except InvalidOperand Unit :=
  checkEach (rangeAt c t r) s.fields

/-- The range phase: every slot in order. -/
def rangePhase (c : Config) (t : VariantTag) (r : RawDescriptor) : List Slot → Except InvalidOperand Unit
  | [] => .ok ()
  | s :: ss => do
    slotRangeCheck c t r s
    rangePhase c t r ss

/-- `construct(raw)` of R206, with the default `ERROR_SELECT`: tag, unexpected fields in `FieldOrder`, presence in slot
order, ranges in slot order, and then the descriptor. -/
def constructInOrder (c : Config) (r : RawDescriptor) : Except InvalidOperand Instr :=
  match r.tag with
  | .other k => .error (unknownVariant (.other k))
  | .admitted t =>
    if tagAdmitted c t then do
      checkEach (unexpectedAt t r) fieldOrder
      checkEach (presenceAt r) (slots t)
      rangePhase c t r (slots t)
      build t r
    else .error (unknownVariant (.admitted t))

/-! ## The block as one function (R19) -/

/-- `run : RawDescriptor -> Except InvalidOperand Word16`: encode what construction yields, or its error record. -/
def run (c : Config) (r : RawDescriptor) : Except InvalidOperand Word16 :=
  match construct c r with
  | .ok i => .ok (encode c i)
  | .error e => .error e

/-- The response that carries a result of `run` (R201). -/
def Response.ofResult : Except InvalidOperand Word16 → Response
  | .ok w => .ok w
  | .error e => .err e

end Sys2Proof.Machine
end

