-- ==== Sys2Proof/Machine/ControlVariants.lean ====
section
/-! DEFINITION. The meanings of JSR, JSRR, TRAP and RTI (43_control_ext.md). The encoder transfers no control, saves
no link and enters no trap (R165), and has one mode (60_exceptions.md R217): each meaning is the word alone. -/

namespace Sys2Proof.Machine

/-- JSR: the offset is packed into the 11-bit field whatever `JSR_RANGE_BITS` (R160, R161). -/
def execJsr (pc_offset : Int) (s : State) : Host.Outcome State Fault Refusal :=
  emit (0x4800 ||| place pc_offset 11 0) s

/-- JSRR (R162). -/
def execJsrr (base_r : Int) (s : State) : Host.Outcome State Fault Refusal :=
  emit (0x4000 ||| place base_r 3 6) s

/-- TRAP (R163). -/
def execTrap (trapvect8 : Int) (s : State) : Host.Outcome State Fault Refusal :=
  emit (0xF000 ||| place trapvect8 8 0) s

/-- RTI (R164). -/
def execRti (s : State) : Host.Outcome State Fault Refusal := emit 0x8000 s

end Sys2Proof.Machine
end

