-- ==== Sys2Proof/Machine/MemoryVariants.lean ====
section
/-! DEFINITION. The meanings of LEA, LDW, STW, LDB and STB (42_memory_ext.md). The encoder performs no access and
scales no offset (20_memory.md R40, R42): each meaning is the word alone. -/

namespace Sys2Proof.Machine

/-- The MEM layout over a base (R141 to R144): a register, a base register and a 6-bit offset packed as given. -/
def memWord (base : Nat) (r base_r offset : Int) : Nat :=
  base ||| place r 3 9 ||| place base_r 3 6 ||| place offset 6 0

/-- LEA (R140). -/
def execLea (dr pc_offset : Int) (s : State) : Host.Outcome State Fault Refusal :=
  emit (0xE000 ||| place dr 3 9 ||| place pc_offset 9 0) s

/-- LDW (R141). -/
def execLdw (dr base_r offset6 : Int) (s : State) : Host.Outcome State Fault Refusal :=
  emit (memWord 0x6000 dr base_r offset6) s

/-- STW (R142). -/
def execStw (sr base_r offset6 : Int) (s : State) : Host.Outcome State Fault Refusal :=
  emit (memWord 0x7000 sr base_r offset6) s

/-- LDB (R143). -/
def execLdb (dr base_r boffset6 : Int) (s : State) : Host.Outcome State Fault Refusal :=
  emit (memWord 0x2000 dr base_r boffset6) s

/-- STB (R144). -/
def execStb (sr base_r boffset6 : Int) (s : State) : Host.Outcome State Fault Refusal :=
  emit (memWord 0x3000 sr base_r boffset6) s

end Sys2Proof.Machine
end

