-- ==== Sys2Proof/Machine/Flags.lean ====
section
/-! DEFINITION. Flags. The encoder has no flag or condition-code state and no request writes one (10_state.md
R24). The condition flags `n`, `z`, `p` are boolean operands of BR, each packed into one bit (40_core_variants.md
R105). -/

namespace Sys2Proof

/-- BR's condition mask in place: `n` in bit 11, `z` in bit 10, `p` in bit 9 (R105). -/
def conditionMask (n z p : Bool) : Nat := (bit n <<< 11) ||| (bit z <<< 10) ||| (bit p <<< 9)

end Sys2Proof
end

