-- ==== Sys2Proof/Machine/CoreVariants.lean ====
section
/-! DEFINITION. The meanings of ADD, AND, BR and JMP: the word each form's pseudocode gives (40_core_variants.md). -/

namespace Sys2Proof.Machine

/-- The layout of ADD, AND and XOR over a base (R101, R104, R122): the mode bit is set together with the field it
selects (R65). -/
def operateWord (base : Nat) (dr sr1 : Int) (op2 : Op2) : Nat :=
  match op2 with
  | .reg sr2 => base ||| place dr 3 9 ||| place sr1 3 6 ||| place sr2 3 0
  | .imm imm5 => base ||| place dr 3 9 ||| place sr1 3 6 ||| (1 <<< 5) ||| place imm5 5 0

/-- ADD, register form (R101). -/
def execAddReg (dr sr1 sr2 : Int) (s : State) : Host.Outcome State Fault Refusal :=
  emit (operateWord 0x1000 dr sr1 (.reg sr2)) s

/-- ADD, immediate form (R101). -/
def execAddImm (dr sr1 imm5 : Int) (s : State) : Host.Outcome State Fault Refusal :=
  emit (operateWord 0x1000 dr sr1 (.imm imm5)) s

/-- AND, register form: the base is `AND_OPCODE << 12` (R104). -/
def execAndReg (dr sr1 sr2 : Int) (s : State) : Host.Outcome State Fault Refusal :=
  emit (operateWord (s.config.andOpcode.bits <<< 12) dr sr1 (.reg sr2)) s

/-- AND, immediate form (R104). -/
def execAndImm (dr sr1 imm5 : Int) (s : State) : Host.Outcome State Fault Refusal :=
  emit (operateWord (s.config.andOpcode.bits <<< 12) dr sr1 (.imm imm5)) s

/-- BR (R105); the composed word is returned (R109). -/
def execBr (n z p : Bool) (pc_offset : Int) (s : State) : Host.Outcome State Fault Refusal :=
  emit (0x0000 ||| conditionMask n z p ||| place pc_offset 9 0) s

/-- JMP (R107). -/
def execJmp (base_r : Int) (s : State) : Host.Outcome State Fault Refusal :=
  emit (0xC000 ||| place base_r 3 6) s

end Sys2Proof.Machine
end

