-- ==== Sys2Proof/Machine/OperateVariants.lean ====
section
/-! DEFINITION. The meanings of NOT, XOR and the three SHF forms (41_operate_ext.md). -/

namespace Sys2Proof.Machine

/-- NOT (R120). -/
def execNotReg (dr sr : Int) (s : State) : Host.Outcome State Fault Refusal :=
  emit (0x903F ||| place dr 3 9 ||| place sr 3 6) s

/-- XOR, register form (R122). -/
def execXorReg (dr sr1 sr2 : Int) (s : State) : Host.Outcome State Fault Refusal :=
  emit (operateWord 0x9000 dr sr1 (.reg sr2)) s

/-- XOR, immediate form (R122). -/
def execXorImm (dr sr1 imm5 : Int) (s : State) : Host.Outcome State Fault Refusal :=
  emit (operateWord 0x9000 dr sr1 (.imm imm5)) s

/-- The bits A and D of a shift kind (R123, R124). -/
def shiftBits : ShiftType → Nat
  | .LSHF => 0b00
  | .RSHFL => 0b01
  | .RSHFA => 0b11

/-- SHF (R123). -/
def shfWord (dr sr : Int) (kind : ShiftType) (amount4 : Int) : Nat :=
  0xD000 ||| place dr 3 9 ||| place sr 3 6 ||| (shiftBits kind <<< 4) ||| place amount4 4 0

/-- SHF with `shift_type = LSHF` (R123). -/
def execLshf (dr sr amount4 : Int) (s : State) : Host.Outcome State Fault Refusal :=
  emit (shfWord dr sr .LSHF amount4) s

/-- SHF with `shift_type = RSHFL` (R123). -/
def execRshfl (dr sr amount4 : Int) (s : State) : Host.Outcome State Fault Refusal :=
  emit (shfWord dr sr .RSHFL amount4) s

/-- SHF with `shift_type = RSHFA` (R123). -/
def execRshfa (dr sr amount4 : Int) (s : State) : Host.Outcome State Fault Refusal :=
  emit (shfWord dr sr .RSHFA amount4) s

end Sys2Proof.Machine
end

