-- ==== Sys2Proof/Machine/Dispatch.lean ====
section
/-! DEFINITION. The packing stage: one arm per form, each one call of the form's meaning (30_encoding.md R61 to R67). -/

namespace Sys2Proof.Machine

/-- Answer the request whose validated descriptor is `i`. -/
def exec (i : Instr) (s : State) : Host.Outcome State Fault Refusal :=
  match i with
  -- 40_core_variants.md
  | .addReg dr sr1 sr2 => Sys2Proof.Machine.execAddReg dr sr1 sr2 s
  | .addImm dr sr1 imm5 => Sys2Proof.Machine.execAddImm dr sr1 imm5 s
  | .andReg dr sr1 sr2 => Sys2Proof.Machine.execAndReg dr sr1 sr2 s
  | .andImm dr sr1 imm5 => Sys2Proof.Machine.execAndImm dr sr1 imm5 s
  | .br n z p pc_offset => Sys2Proof.Machine.execBr n z p pc_offset s
  | .jmp base_r => Sys2Proof.Machine.execJmp base_r s
  -- 41_operate_ext.md
  | .notReg dr sr => Sys2Proof.Machine.execNotReg dr sr s
  | .xorReg dr sr1 sr2 => Sys2Proof.Machine.execXorReg dr sr1 sr2 s
  | .xorImm dr sr1 imm5 => Sys2Proof.Machine.execXorImm dr sr1 imm5 s
  | .lshf dr sr amount4 => Sys2Proof.Machine.execLshf dr sr amount4 s
  | .rshfl dr sr amount4 => Sys2Proof.Machine.execRshfl dr sr amount4 s
  | .rshfa dr sr amount4 => Sys2Proof.Machine.execRshfa dr sr amount4 s
  -- 42_memory_ext.md
  | .lea dr pc_offset => Sys2Proof.Machine.execLea dr pc_offset s
  | .ldw dr base_r offset6 => Sys2Proof.Machine.execLdw dr base_r offset6 s
  | .stw sr base_r offset6 => Sys2Proof.Machine.execStw sr base_r offset6 s
  | .ldb dr base_r boffset6 => Sys2Proof.Machine.execLdb dr base_r boffset6 s
  | .stb sr base_r boffset6 => Sys2Proof.Machine.execStb sr base_r boffset6 s
  -- 43_control_ext.md
  | .jsr pc_offset => Sys2Proof.Machine.execJsr pc_offset s
  | .jsrr base_r => Sys2Proof.Machine.execJsrr base_r s
  | .trap trapvect8 => Sys2Proof.Machine.execTrap trapvect8 s
  | .rti => Sys2Proof.Machine.execRti s

end Sys2Proof.Machine
end

