-- ==== Sys2Proof/Machine/Step.lean ====
section
/-! DEFINITION. One step: one whole transaction of the block (decision D1, 60_exceptions.md R201, R212). -/

namespace Sys2Proof.Machine

/-- One step. The next request is taken from the port and constructed; a refusal is answered at once (R209), a
validated descriptor goes to the packing stage. With no request presented the block gives no response (R241) and
nothing changes. -/
def step (s : State) : Host.Outcome State Fault Refusal :=
  match s.requests with
  | [] => .next s
  | r :: rest =>
    match construct s.config r with
    | .ok i => exec i { s with requests := rest }
    | .error e => raiseInvalid e { s with requests := rest }

/-- Present the instruction of a table word as the NEXT request (log entry 4). The block fetches no word (20_memory.md
R49): an instruction reaches it as the request whose word it is. A word that no request spells presents nothing. -/
def State.withFetchWord (s : State) (nbits w : Nat) : State :=
  match tableWord nbits w with
  | some v =>
    match decode s.config v with
    | .ok i => { s with requests := i.toRaw :: s.requests }
    | .error _ => s
  | none => s

end Sys2Proof.Machine
end

