-- ==== Sys2Proof/Safety.lean ====
section
/-! DEFINITION. What counts as a safe run, in the terms the statements use: the words the encoder may give
(30_encoding.md R75), the shape and the cause of an error record (60_exceptions.md R211), the invariant of a run, and
the edits of a request that the construction statements speak of. -/

namespace Sys2Proof

open Sys2Proof.Machine

/-! ## Words the encoder may give (R75) -/

/-- Formats RR and RI leave only bits [4:3] of the register form fixed (R71, R74). -/
def operateShape (w : Word16) : Bool := field w 5 5 == 1 || field w 4 3 == 0

/-- Is a word one that some validated descriptor gives? By opcode (R72), the fixed bits of R74 and R75, the tags
admitted (R12), and, beyond R75's own list, JSR's range (R161; log entry 7). -/
def producible (c : Config) (w : Word16) : Bool :=
  let gk := decide (c.gkLayouts = .on)
  match field w 15 12 with
  | 0b0000 => true
  | 0b0001 => operateShape w
  | 0b0010 => gk
  | 0b0011 => gk || (decide (c.andOpcode = .sourceTable) && operateShape w)
  | 0b0100 =>
    gk && (if field w 11 11 = 1 then decide (c.jsrRange = .eleven) || field w 10 8 == 0 || field w 10 8 == 7
           else field w 10 9 == 0 && field w 5 0 == 0)
  | 0b0101 => decide (c.andOpcode = .lc3b) && operateShape w
  | 0b0110 => gk
  | 0b0111 => gk
  | 0b1000 => gk && field w 11 0 == 0
  | 0b1001 => gk && operateShape w
  | 0b1100 => field w 11 9 == 0 && field w 5 0 == 0
  | 0b1101 => gk && field w 5 4 != 2
  | 0b1110 => gk
  | 0b1111 => gk && field w 11 8 == 0
  | _ => false

/-! ## Error records (R210, R211) -/

/-- The shape R211's table gives the record of each kind. -/
def InvalidOperand.shapeOk (e : InvalidOperand) : Bool :=
  match e.kind, e.fields, e.value with
  | .MissingField, [_], none => true
  | .BothExclusivePresent, [.sr2, .imm5], none => true
  | .NeitherExclusivePresent, [.sr2, .imm5], none => true
  | .RegisterOutOfRange, [f], some (.int v) => f.isRegister && !decide (inReg v)
  | .ImmediateOutOfRange, [f], some (.int _) => f.isNumeric
  | .UnexpectedField, [_], some _ => true
  | .UnknownVariant, [], some (.tag _) => true
  | _, _, _ => false

/-- The admitted range of each numeric field in each variant, in the numbers of R205 and R70. -/
def statedRange (c : Config) (t : VariantTag) : FieldName → Option (Int × Int)
  | .imm5 => some (-16, 15)
  | .pc_offset =>
    if t = .JSR ∧ c.jsrRange = .eleven then some (-1024, 1023) else some (-256, 255)
  | .offset6 => some (-32, 31)
  | .boffset6 => some (-32, 31)
  | .amount4 => if c.unsignedFields = .unsigned then some (0, 15) else some (-8, 7)
  | .trapvect8 => if c.unsignedFields = .unsigned then some (0, 255) else some (-128, 127)
  | .dr | .sr | .sr1 | .sr2 | .base_r | .n | .z | .p | .shift_type => none

/-- Does an error record report a violation of the request, kind by kind, with the cause, the variants, the fields and
the value that R211's table gives (R202 to R205)? -/
def ErrorCause (c : Config) (r : RawDescriptor) (e : InvalidOperand) : Prop :=
  match e.kind with
  | .MissingField =>
    ∃ t f, r.tag = .admitted t ∧ .single f ∈ slots t ∧ r.get f = none ∧ e.fields = [f] ∧ e.value = none
  | .BothExclusivePresent =>
    (r.tag = .admitted .ADD ∨ r.tag = .admitted .AND ∨ r.tag = .admitted .XOR) ∧
      r.sr2.isSome ∧ r.imm5.isSome ∧ e.fields = [.sr2, .imm5] ∧ e.value = none
  | .NeitherExclusivePresent =>
    (r.tag = .admitted .ADD ∨ r.tag = .admitted .AND ∨ r.tag = .admitted .XOR) ∧
      r.sr2 = none ∧ r.imm5 = none ∧ e.fields = [.sr2, .imm5] ∧ e.value = none
  | .RegisterOutOfRange =>
    ∃ t f v, r.tag = .admitted t ∧ f ∈ slotFields t ∧ f ∈ [FieldName.dr, .sr, .sr1, .sr2, .base_r] ∧
      r.get f = some (.int v) ∧ (v < 0 ∨ 7 < v) ∧ e.fields = [f] ∧ e.value = some (.int v)
  | .ImmediateOutOfRange =>
    ∃ t f v lo hi, r.tag = .admitted t ∧
      t ∈ [VariantTag.ADD, .AND, .XOR, .BR, .LEA, .LDW, .STW, .LDB, .STB, .SHF, .JSR, .TRAP] ∧
      f ∈ slotFields t ∧ statedRange c t f = some (lo, hi) ∧ r.get f = some (.int v) ∧ (v < lo ∨ hi < v) ∧
      e.fields = [f] ∧ e.value = some (.int v)
  | .UnexpectedField =>
    ∃ t f v, r.tag = .admitted t ∧ f ∉ slotFields t ∧ r.get f = some v ∧ e.fields = [f] ∧ e.value = some v
  | .UnknownVariant =>
    ((∃ k, r.tag = .other k) ∨
      (c.gkLayouts = .off ∧ ∃ t, r.tag = .admitted t ∧ t ∉ [VariantTag.ADD, .AND, .BR, .JMP])) ∧
      e.fields = [] ∧ e.value = some (.tag r.tag)

/-! ## The invariant of a run -/

/-- A response the block may give: a word of R75's complement, or a record of R211's shape. -/
def Machine.Response.legal (c : Config) : Response → Bool
  | .ok w => producible c w
  | .err e => e.shapeOk

/-- The parameters are legal, every waiting request fits the operand buses, and every response given is legal. -/
def Machine.State.inv (s : State) : Bool :=
  s.config.wf && s.requests.all (RawDescriptor.fits s.config) && s.responses.all (Response.legal s.config)

/-! ## Editing a request -/

/-- The request with an integer put in a field (a field that carries no integer is left as it is). -/
def RawDescriptor.setInt (r : RawDescriptor) (f : FieldName) (v : Int) : RawDescriptor :=
  match f with
  | .dr => { r with dr := some v }
  | .sr => { r with sr := some v }
  | .sr1 => { r with sr1 := some v }
  | .sr2 => { r with sr2 := some v }
  | .base_r => { r with base_r := some v }
  | .imm5 => { r with imm5 := some v }
  | .pc_offset => { r with pc_offset := some v }
  | .offset6 => { r with offset6 := some v }
  | .boffset6 => { r with boffset6 := some v }
  | .amount4 => { r with amount4 := some v }
  | .trapvect8 => { r with trapvect8 := some v }
  | .n => r
  | .z => r
  | .p => r
  | .shift_type => r

/-- The request with a value put in a field, where the value is of the field's type. -/
def RawDescriptor.set (r : RawDescriptor) (f : FieldName) (x : Value) : RawDescriptor :=
  match f, x with
  | .n, .bool b => { r with n := some b }
  | .z, .bool b => { r with z := some b }
  | .p, .bool b => { r with p := some b }
  | .shift_type, .shift t => { r with shift_type := some t }
  | f, .int v => r.setInt f v
  | _, _ => r

/-- The request with a field taken out. -/
def RawDescriptor.clear (r : RawDescriptor) (f : FieldName) : RawDescriptor :=
  match f with
  | .dr => { r with dr := none }
  | .sr => { r with sr := none }
  | .sr1 => { r with sr1 := none }
  | .sr2 => { r with sr2 := none }
  | .base_r => { r with base_r := none }
  | .imm5 => { r with imm5 := none }
  | .n => { r with n := none }
  | .z => { r with z := none }
  | .p => { r with p := none }
  | .pc_offset => { r with pc_offset := none }
  | .offset6 => { r with offset6 := none }
  | .boffset6 => { r with boffset6 := none }
  | .amount4 => { r with amount4 := none }
  | .shift_type => { r with shift_type := none }
  | .trapvect8 => { r with trapvect8 := none }

end Sys2Proof
end

