-- ==== Sys2Proof/Certificates/Slice0/Obligations.lean ====
section
/-! DEFINITION. The statements for the provers. Each docstring names the rule of spec/ the statement formalises, or the
log entry it rests on. -/

open Sys2Proof Sys2Proof.Machine

/-! ## Decoder and encoder -/

/-- Words written out from the formats of 30_encoding.md R71 decode to the instruction they stand for, and words R75
says are never produced decode to nothing. -/
def Obligations.SpecWordsDecode : Prop :=
  decodeTableWord 16 0b0001_001_010_0_00_011 = some (.addReg 1 2 3) ∧
  decodeTableWord 16 0b0101_111_110_1_10000 = some (.andImm 7 6 (-16)) ∧
  decodeTableWord 16 0b0000_1_0_0_000000101 = some (.br true false false 5) ∧
  decodeTableWord 16 0b1101_111_110_11_1111 = some (.rshfa 7 6 15) ∧
  decodeTableWord 16 0b0111_011_010_111111 = some (.stw 3 2 (-1)) ∧
  decodeTableWord 16 0b0100_1_11100000000 = some (.jsr (-256)) ∧
  decodeTableWord 16 0b1111_0000_00100101 = some (.trap 0x25) ∧
  decodeTableWord 16 0b1010_000000000000 = none ∧
  decodeTableWord 16 0b1101_000_000_10_0000 = none ∧
  decodeTableWord 16 0b1000_000000000001 = none

/-- Decoding the word of a validated descriptor gives it back under every configuration, but for the words two forms
share: XOR with imm5 = -1 (R76) and, at `AND_OPCODE = 0b0011`, STB (R73). Which form the decoder then answers is the
model's choice (log entry 6). -/
def Obligations.DecodeOfEncodeIsCanonical : Prop :=
  (∀ (c : Config) (i : Instr), i.wellFormed c = true → decode c (encode c i) = .ok (i.canonical c)) ∧
  (∀ (c : Config) (i : Instr), i.canonical c ≠ i →
    (∃ dr sr1, i = .xorImm dr sr1 (-1)) ∨ (c.andOpcode = .sourceTable ∧ ∃ sr b off, i = .stb sr b off))

/-- What the decoder reads from a word is a validated descriptor whose word is that word. -/
def Obligations.EncodeOfDecodeIsTheWord : Prop :=
  ∀ (c : Config) (w : Word16) (i : Instr), decode c w = .ok i → i.wellFormed c = true ∧ encode c i = w

/-- R76: NOT shares its word with XOR imm5 = -1; at `AND_OPCODE = 0b0011` every AND word is an STB word; no other two
forms share a word at the defaults. -/
def Obligations.OnlyNotAndXorShareAWord : Prop :=
  (∀ (c : Config) (dr sr : Int), encode c (.notReg dr sr) = encode c (.xorImm dr sr (-1))) ∧
  (∀ (c : Config) (i : Instr), c.andOpcode = .sourceTable → c.gkLayouts = .on → i.wellFormed c = true →
    i.variant = .AND → ∃ j : Instr, j.wellFormed c = true ∧ j.variant = .STB ∧ encode c j = encode c i) ∧
  (∀ i j : Instr, i.wellFormed Config.default = true → j.wellFormed Config.default = true → i.form ≠ j.form →
    encode Config.default i = encode Config.default j →
    ∃ dr sr, (i = .notReg dr sr ∧ j = .xorImm dr sr (-1)) ∨ (j = .notReg dr sr ∧ i = .xorImm dr sr (-1)))

/-- R77: inside one form the word determines the descriptor; the source's two ADD descriptors give different words. -/
def Obligations.EncodeIsInjectiveInAForm : Prop :=
  (∀ (c : Config) (i j : Instr), i.wellFormed c = true → j.wellFormed c = true → i.form = j.form →
    encode c i = encode c j → i = j) ∧
  (∀ c : Config, encode c (.addReg 1 2 3) ≠ encode c (.addImm 1 2 (-1)))

/-- R63: the packing stage answers the OR of the base pattern and the placed fields; in every row of the table the mask
and the field ranges are pairwise disjoint and together cover [15:0], so the OR is also the sum. -/
def Obligations.FieldsPartitionTheWord : Prop :=
  (∀ (c : Config) (f : Form),
    (row c f).pattern &&& ~~~(row c f).mask = 0#16 ∧
    (row c f).fields.Pairwise (fun p q => p.mask &&& q.mask = 0#16) ∧
    (∀ p ∈ (row c f).fields, p.mask &&& (row c f).mask = 0#16) ∧
    (row c f).fields.foldl (fun m p => m ||| p.mask) (row c f).mask = 0xFFFF#16) ∧
  (∀ (i : Instr) (s : State), ∃ w : Word16, exec i s = .next (s.respond (.ok w)) ∧
    w.toNat = (row s.config i.form).fields.foldl
      (fun n p => n ||| place (i.operand p.name) (p.hi - p.lo + 1) p.lo) (row s.config i.form).pattern.toNat ∧
    w.toNat = (row s.config i.form).pattern.toNat +
      ((row s.config i.form).fields.map (fun p => place (i.operand p.name) (p.hi - p.lo + 1) p.lo)).sum)

/-- R208: encoding never fails. Every instruction, in every state, is answered with the word that the table of forms
gives it: the pseudocode of the variants' rules and opcode_table.json agree, and the step-5 assertion of R67 never
fires. -/
def Obligations.ExecAnswersTheTableWord : Prop :=
  ∀ (i : Instr) (s : State), exec i s = .next (s.respond (.ok (encode s.config i)))

/-- At each configuration the words of validated descriptors are exactly the ones `producible` describes: R75's list at
the defaults, and JSR's range besides (log entry 7). -/
def Obligations.ImageOfEncodeIsProducible : Prop :=
  ∀ (c : Config) (w : Word16), (∃ i : Instr, i.wellFormed c = true ∧ encode c i = w) ↔ producible c w = true

/-! ## The word of each variant -/

/-- ADD (R101, format RR and RI): opcode, registers, mode bit and second operand, each in its bits. -/
def Obligations.AddAnswersItsWord : Prop :=
  (∀ (s : State) (dr sr1 sr2 : Int), inReg dr → inReg sr1 → inReg sr2 →
    ∃ w : Word16, exec (.addReg dr sr1 sr2) s = .next (s.respond (.ok w)) ∧
      field w 15 12 = 0b0001 ∧ (field w 11 9 : Int) = dr ∧ (field w 8 6 : Int) = sr1 ∧ field w 5 5 = 0 ∧
      field w 4 3 = 0 ∧ (field w 2 0 : Int) = sr2) ∧
  (∀ (s : State) (dr sr1 imm5 : Int), inReg dr → inReg sr1 → -16 ≤ imm5 → imm5 ≤ 15 →
    ∃ w : Word16, exec (.addImm dr sr1 imm5) s = .next (s.respond (.ok w)) ∧
      field w 15 12 = 0b0001 ∧ (field w 11 9 : Int) = dr ∧ (field w 8 6 : Int) = sr1 ∧ field w 5 5 = 1 ∧
      sext 5 (field w 4 0) = imm5)

/-- AND (R104, R73): as ADD, with the opcode the parameter gives. -/
def Obligations.AndAnswersItsWord : Prop :=
  (∀ (s : State) (dr sr1 sr2 : Int), inReg dr → inReg sr1 → inReg sr2 →
    ∃ w : Word16, exec (.andReg dr sr1 sr2) s = .next (s.respond (.ok w)) ∧
      field w 15 12 = (if s.config.andOpcode = .lc3b then 0b0101 else 0b0011) ∧
      (field w 11 9 : Int) = dr ∧ (field w 8 6 : Int) = sr1 ∧ field w 5 5 = 0 ∧
      field w 4 3 = 0 ∧ (field w 2 0 : Int) = sr2) ∧
  (∀ (s : State) (dr sr1 imm5 : Int), inReg dr → inReg sr1 → -16 ≤ imm5 → imm5 ≤ 15 →
    ∃ w : Word16, exec (.andImm dr sr1 imm5) s = .next (s.respond (.ok w)) ∧
      field w 15 12 = (if s.config.andOpcode = .lc3b then 0b0101 else 0b0011) ∧
      (field w 11 9 : Int) = dr ∧ (field w 8 6 : Int) = sr1 ∧ field w 5 5 = 1 ∧ sext 5 (field w 4 0) = imm5)

/-- BR (R105): the condition mask and the offset in their bits, and the source's two examples. -/
def Obligations.BrAnswersItsWord : Prop :=
  (∀ (s : State) (n z p : Bool) (off : Int), -256 ≤ off → off ≤ 255 →
    ∃ w : Word16, exec (.br n z p off) s = .next (s.respond (.ok w)) ∧
      field w 15 12 = 0b0000 ∧ field w 11 11 = bit n ∧ field w 10 10 = bit z ∧ field w 9 9 = bit p ∧
      sext 9 (field w 8 0) = off) ∧
  (∀ s : State, exec (.br false false false 0) s = .next (s.respond (.ok 0x0000#16)) ∧
    exec (.br true false false 5) s = .next (s.respond (.ok 0x0805#16)))

/-- JMP (R107) and JSRR (R162), format BASE. -/
def Obligations.BaseRegisterFormsAnswerTheirWord : Prop :=
  ∀ (s : State) (b : Int), inReg b →
    (∃ w : Word16, exec (.jmp b) s = .next (s.respond (.ok w)) ∧
      field w 15 12 = 0b1100 ∧ field w 11 9 = 0 ∧ (field w 8 6 : Int) = b ∧ field w 5 0 = 0) ∧
    (∃ w : Word16, exec (.jsrr b) s = .next (s.respond (.ok w)) ∧
      field w 15 12 = 0b0100 ∧ field w 11 11 = 0 ∧ field w 10 9 = 0 ∧ (field w 8 6 : Int) = b ∧ field w 5 0 = 0)

/-- NOT (R120), and it is the word of XOR with imm5 = -1 (R121). -/
def Obligations.NotAnswersItsWord : Prop :=
  ∀ (s : State) (dr sr : Int), inReg dr → inReg sr →
    ∃ w : Word16, exec (.notReg dr sr) s = .next (s.respond (.ok w)) ∧
      exec (.xorImm dr sr (-1)) s = .next (s.respond (.ok w)) ∧
      field w 15 12 = 0b1001 ∧ (field w 11 9 : Int) = dr ∧ (field w 8 6 : Int) = sr ∧ field w 5 0 = 0b111111

/-- XOR (R122), both forms. -/
def Obligations.XorAnswersItsWord : Prop :=
  (∀ (s : State) (dr sr1 sr2 : Int), inReg dr → inReg sr1 → inReg sr2 →
    ∃ w : Word16, exec (.xorReg dr sr1 sr2) s = .next (s.respond (.ok w)) ∧
      field w 15 12 = 0b1001 ∧ (field w 11 9 : Int) = dr ∧ (field w 8 6 : Int) = sr1 ∧ field w 5 5 = 0 ∧
      field w 4 3 = 0 ∧ (field w 2 0 : Int) = sr2) ∧
  (∀ (s : State) (dr sr1 imm5 : Int), inReg dr → inReg sr1 → -16 ≤ imm5 → imm5 ≤ 15 →
    ∃ w : Word16, exec (.xorImm dr sr1 imm5) s = .next (s.respond (.ok w)) ∧
      field w 15 12 = 0b1001 ∧ (field w 11 9 : Int) = dr ∧ (field w 8 6 : Int) = sr1 ∧ field w 5 5 = 1 ∧
      sext 5 (field w 4 0) = imm5)

/-- SHF (R123): the three kinds, with the amount read unsigned under `UNSIGNED_FIELDS = unsigned` and signed under
`signed` (R69). -/
def Obligations.ShfAnswersItsWord : Prop :=
  ∀ (s : State) (dr sr a : Int), inReg dr → inReg sr →
    (s.config.unsignedFields = .unsigned ∧ 0 ≤ a ∧ a ≤ 15 ∨ s.config.unsignedFields = .signed ∧ -8 ≤ a ∧ a ≤ 7) →
    ∀ (i : Instr) (ad : Nat),
      (i = .lshf dr sr a ∧ ad = 0b00 ∨ i = .rshfl dr sr a ∧ ad = 0b01 ∨ i = .rshfa dr sr a ∧ ad = 0b11) →
      ∃ w : Word16, exec i s = .next (s.respond (.ok w)) ∧
        field w 15 12 = 0b1101 ∧ (field w 11 9 : Int) = dr ∧ (field w 8 6 : Int) = sr ∧ field w 5 4 = ad ∧
        (s.config.unsignedFields = .unsigned → (field w 3 0 : Int) = a) ∧
        (s.config.unsignedFields = .signed → sext 4 (field w 3 0) = a)

/-- LEA (R140). -/
def Obligations.LeaAnswersItsWord : Prop :=
  ∀ (s : State) (dr off : Int), inReg dr → -256 ≤ off → off ≤ 255 →
    ∃ w : Word16, exec (.lea dr off) s = .next (s.respond (.ok w)) ∧
      field w 15 12 = 0b1110 ∧ (field w 11 9 : Int) = dr ∧ sext 9 (field w 8 0) = off

/-- LDW, STW, LDB and STB (R141 to R144), format MEM: the offset is packed as given, never scaled. -/
def Obligations.LoadsAndStoresAnswerTheirWord : Prop :=
  ∀ (s : State) (r b off : Int), inReg r → inReg b → -32 ≤ off → off ≤ 31 →
    ∀ (i : Instr) (op : Nat),
      (i = .ldw r b off ∧ op = 0b0110 ∨ i = .stw r b off ∧ op = 0b0111 ∨
        i = .ldb r b off ∧ op = 0b0010 ∨ i = .stb r b off ∧ op = 0b0011) →
      ∃ w : Word16, exec i s = .next (s.respond (.ok w)) ∧
        field w 15 12 = op ∧ (field w 11 9 : Int) = r ∧ (field w 8 6 : Int) = b ∧ sext 6 (field w 5 0) = off

/-- JSR (R160), over the whole 11-bit field. -/
def Obligations.JsrAnswersItsWord : Prop :=
  ∀ (s : State) (off : Int), -1024 ≤ off → off ≤ 1023 →
    ∃ w : Word16, exec (.jsr off) s = .next (s.respond (.ok w)) ∧
      field w 15 12 = 0b0100 ∧ field w 11 11 = 1 ∧ sext 11 (field w 10 0) = off

/-- TRAP (R163) and RTI (R164). -/
def Obligations.TrapAndRtiAnswerTheirWord : Prop :=
  (∀ (s : State) (v : Int),
    (s.config.unsignedFields = .unsigned ∧ 0 ≤ v ∧ v ≤ 255 ∨ s.config.unsignedFields = .signed ∧ -128 ≤ v ∧ v ≤ 127) →
    ∃ w : Word16, exec (.trap v) s = .next (s.respond (.ok w)) ∧
      field w 15 12 = 0b1111 ∧ field w 11 8 = 0 ∧
      (s.config.unsignedFields = .unsigned → (field w 7 0 : Int) = v) ∧
      (s.config.unsignedFields = .signed → sext 8 (field w 7 0) = v)) ∧
  (∀ s : State, exec .rti s = .next (s.respond (.ok 0x8000#16)))

/-! ## Laws of the fields -/

/-- R64: a register reference stands unmodified in its 3-bit field, whatever the form. -/
def Obligations.RegisterFieldsAreRecovered : Prop :=
  ∀ (s : State) (i : Instr), i.wellFormed s.config = true →
    ∃ w : Word16, exec i s = .next (s.respond (.ok w)) ∧
      ∀ p ∈ (row s.config i.form).fields, p.name ∈ [FieldName.dr, .sr, .sr1, .sr2, .base_r] →
        p.hi = p.lo + 2 ∧ field w p.hi p.lo = place (i.operand p.name) 3 p.lo >>> p.lo ∧
        (field w p.hi p.lo : Int) = i.operand p.name

/-- R68: every signed field is recovered by sign extension; a value is neither scaled nor shifted. -/
def Obligations.SignedFieldsAreRecovered : Prop :=
  ∀ (s : State) (i : Instr), i.wellFormed s.config = true →
    ∃ w : Word16, exec i s = .next (s.respond (.ok w)) ∧
      ∀ p ∈ (row s.config i.form).fields, p.name ∈ [FieldName.imm5, .pc_offset, .offset6, .boffset6] →
        field w p.hi p.lo = mask (p.hi - p.lo + 1) (i.operand p.name) ∧
        sext (p.hi - p.lo + 1) (field w p.hi p.lo) = i.operand p.name

/-- R69: `amount4` and `trapvect8` are recovered by zero extension under `unsigned` and by sign extension under
`signed`. -/
def Obligations.UnsignedFieldsAreRecovered : Prop :=
  ∀ (s : State) (i : Instr), i.wellFormed s.config = true →
    ∃ w : Word16, exec i s = .next (s.respond (.ok w)) ∧
      ∀ p ∈ (row s.config i.form).fields, p.name ∈ [FieldName.amount4, .trapvect8] →
        field w p.hi p.lo = mask (p.hi - p.lo + 1) (i.operand p.name) ∧
        (s.config.unsignedFields = .unsigned → zext (p.hi - p.lo + 1) (field w p.hi p.lo) = i.operand p.name) ∧
        (s.config.unsignedFields = .signed → sext (p.hi - p.lo + 1) (field w p.hi p.lo) = i.operand p.name)

/-- R66: in ADD, AND and XOR, bit 5 is 0 with bits [4:3] zero in the register form, and 1 in the immediate form. -/
def Obligations.ModeBitFollowsTheOperand : Prop :=
  ∀ (c : Config) (r : RawDescriptor) (w : Word16),
    (r.tag = .admitted .ADD ∨ r.tag = .admitted .AND ∨ r.tag = .admitted .XOR) → run c r = .ok w →
    (∀ v, r.sr2 = some v → field w 5 5 = 0 ∧ field w 4 3 = 0 ∧ (field w 2 0 : Int) = v) ∧
    (∀ v, r.imm5 = some v → field w 5 5 = 1 ∧ sext 5 (field w 4 0) = v)

/-- R74: bits that are neither opcode, fixed ones nor a field are zero, whatever the operands. -/
def Obligations.FixedZeroBitsStayZero : Prop :=
  (∀ (c : Config) (f : Form) (i : Instr), i.form = f → encode c i &&& (row c f).mask = (row c f).pattern) ∧
  (∀ (c : Config) (a b d : Int), field (encode c (.addReg a b d)) 4 3 = 0 ∧ field (encode c (.andReg a b d)) 4 3 = 0 ∧
    field (encode c (.xorReg a b d)) 4 3 = 0) ∧
  (∀ (c : Config) (b : Int), field (encode c (.jmp b)) 11 9 = 0 ∧ field (encode c (.jmp b)) 5 0 = 0) ∧
  (∀ (c : Config) (b : Int), field (encode c (.jsrr b)) 11 11 = 0 ∧ field (encode c (.jsrr b)) 10 9 = 0 ∧
    field (encode c (.jsrr b)) 5 0 = 0) ∧
  (∀ (c : Config) (v : Int), field (encode c (.trap v)) 11 8 = 0) ∧
  (∀ c : Config, field (encode c .rti) 11 0 = 0)

/-- R124: an SHF request gives bits [5:4] of its kind and never 0b10; bit 4 is 0 for the left shift and 1 for the right
shifts, and bit 5 is 1 for the arithmetic right shift only. -/
def Obligations.ShiftKindBits : Prop :=
  ∀ (c : Config) (r : RawDescriptor) (w : Word16), r.tag = .admitted .SHF → run c r = .ok w →
    field w 5 4 ≠ 0b10 ∧
    ∃ kind : ShiftType, r.shift_type = some kind ∧
      (field w 4 4 = 0 ↔ kind = .LSHF) ∧ (field w 4 4 = 1 ↔ kind = .RSHFL ∨ kind = .RSHFA) ∧
      (field w 5 5 = 1 ↔ kind = .RSHFA)

/-- R161: JSR's offset is packed into the 11-bit field; in -256..255 both readings recover it, and
`JSR_RANGE_BITS = 11` widens the admitted range to the whole field. -/
def Obligations.JsrOffsetReadsTheSameBothWays : Prop :=
  ∀ (c : Config) (v : Int), c.gkLayouts = .on →
    (-256 ≤ v → v ≤ 255 →
      ∃ w, run c { tag := .admitted .JSR, pc_offset := some v } = .ok w ∧ field w 10 0 = place v 11 0 ∧
        sext 11 (field w 10 0) = v ∧ sext 9 (field w 8 0) = v) ∧
    (c.jsrRange = .eleven → -1024 ≤ v → v ≤ 1023 →
      ∃ w, run c { tag := .admitted .JSR, pc_offset := some v } = .ok w ∧ sext 11 (field w 10 0) = v) ∧
    (c.jsrRange = .nine → (v < -256 ∨ 255 < v) → ∃ e, run c { tag := .admitted .JSR, pc_offset := some v } = .error e) ∧
    (c.jsrRange = .eleven → (v < -1024 ∨ 1023 < v) →
      ∃ e, run c { tag := .admitted .JSR, pc_offset := some v } = .error e)

/-! ## Construction -/

/-- R207: construction succeeds exactly when no violation applies, and then yields the unique validated descriptor with
the request's field values; otherwise the error reported is the one `ERROR_SELECT` picks, a member of the violations, and
when R202 applies it is the only one. -/
def Obligations.ConstructionFollowsTheViolations : Prop :=
  ∀ (c : Config) (r : RawDescriptor),
    ((∃ i, construct c r = .ok i) ↔ violations c r = []) ∧
    (∀ i, construct c r = .ok i → i.wellFormed c = true ∧ i.toRaw = r ∧
      ∀ j : Instr, j.wellFormed c = true → j.toRaw = r → j = i) ∧
    (∀ e es, violations c r = e :: es →
      construct c r = .error (selectViolation c e es) ∧ selectViolation c e es ∈ violations c r ∧
      (c.errorSelect = .specOrder → selectViolation c e es = e)) ∧
    (∀ e, e.kind = .UnknownVariant → e ∈ violations c r → violations c r = [e])

/-- R28, R29: a request is admitted exactly when it is the request of a validated descriptor, and then it yields that
descriptor. -/
def Obligations.ConstructionInvertsTheRequest : Prop :=
  ∀ (c : Config) (r : RawDescriptor) (i : Instr), construct c r = .ok i ↔ i.wellFormed c = true ∧ r = i.toRaw

/-- R206: under the default `ERROR_SELECT` construction is the spec's algorithm. -/
def Obligations.DefaultConstructionIsTheAlgorithm : Prop :=
  ∀ (c : Config) (r : RawDescriptor), c.errorSelect = .specOrder → construct c r = constructInOrder c r

/-- R202: a tag that is none of the 16, and any of the twelve general-knowledge tags while `GK_LAYOUTS = off`, is refused as
`UnknownVariant` carrying the tag, whatever else the request holds. -/
def Obligations.UnknownVariantIsRefused : Prop :=
  ∀ (c : Config) (r : RawDescriptor),
    ((∃ k, r.tag = .other k) ∨
      (c.gkLayouts = .off ∧ ∃ t ∈ [VariantTag.NOT, .XOR, .SHF, .LEA, .LDW, .STW, .LDB, .STB, .JSR, .JSRR, .TRAP, .RTI],
        r.tag = .admitted t)) →
    construct c r = .error ⟨.UnknownVariant, [], some (.tag r.tag)⟩

/-- R108 and the first sentence of R12: ADD, AND, BR and JMP are admitted under both values of `GK_LAYOUTS`; the other
twelve exactly under `on`. -/
def Obligations.AdmittedTagsFollowGkLayouts : Prop :=
  ∀ (c : Config) (i : Instr), i.operandsInRange c = true →
    (i.variant ∈ [VariantTag.ADD, .AND, .BR, .JMP] → construct c i.toRaw = .ok i) ∧
    (i.variant ∉ [VariantTag.ADD, .AND, .BR, .JMP] →
      (c.gkLayouts = .on → construct c i.toRaw = .ok i) ∧
      (c.gkLayouts = .off → construct c i.toRaw = .error ⟨.UnknownVariant, [], some (.tag i.toRaw.tag)⟩))

/-- R102: a request of ADD, AND or XOR with both `sr2` and `imm5`, or with neither, fails with the violation of that
name among those that apply; one that succeeds has exactly one of the two. -/
def Obligations.OperandPairIsExclusive : Prop :=
  ∀ (c : Config) (r : RawDescriptor) (t : VariantTag), r.tag = .admitted t → t ∈ [VariantTag.ADD, .AND, .XOR] →
    tagAdmitted c t = true →
    (r.sr2.isSome → r.imm5.isSome →
      ⟨.BothExclusivePresent, [.sr2, .imm5], none⟩ ∈ violations c r ∧ ∃ e, construct c r = .error e) ∧
    (r.sr2 = none → r.imm5 = none →
      ⟨.NeitherExclusivePresent, [.sr2, .imm5], none⟩ ∈ violations c r ∧ ∃ e, construct c r = .error e) ∧
    (∀ i, construct c r = .ok i → (r.sr2.isSome ∧ r.imm5 = none) ∨ (r.sr2 = none ∧ r.imm5.isSome))

/-- R103, R204: in every register field of every variant a value in 0..7 is admitted and any other is refused, under
every `ERROR_SELECT`, with the field and the value. -/
def Obligations.RegisterRangeIsChecked : Prop :=
  ∀ (c : Config) (i : Instr) (f : FieldName) (v : Int), i.wellFormed c = true →
    f ∈ [FieldName.dr, .sr, .sr1, .sr2, .base_r] → (i.toRaw.get f).isSome →
    (0 ≤ v ∧ v ≤ 7 → ∃ j, construct c (i.toRaw.setInt f v) = .ok j) ∧
    (v < 0 ∨ 7 < v → construct c (i.toRaw.setInt f v) = .error ⟨.RegisterOutOfRange, [f], some (.int v)⟩)

/-- R205: in every numeric field of every variant a value in the stated range is admitted and any other is refused, under
every `ERROR_SELECT`, with the field and the value. -/
def Obligations.NumericRangeIsChecked : Prop :=
  ∀ (c : Config) (i : Instr) (f : FieldName) (lo hi v : Int), i.wellFormed c = true →
    (i.toRaw.get f).isSome → statedRange c i.variant f = some (lo, hi) →
    (lo ≤ v ∧ v ≤ hi → ∃ j, construct c (i.toRaw.setInt f v) = .ok j) ∧
    (v < lo ∨ hi < v → construct c (i.toRaw.setInt f v) = .error ⟨.ImmediateOutOfRange, [f], some (.int v)⟩)

/-- R203: a validated request less the field of a single slot is refused as `MissingField`, and one with any value in a
field of no slot is refused as `UnexpectedField`, under every `ERROR_SELECT`. -/
def Obligations.FieldSetIsExact : Prop :=
  ∀ (c : Config) (i : Instr) (f : FieldName), i.wellFormed c = true →
    (.single f ∈ slots i.variant →
      construct c (i.toRaw.clear f) = .error ⟨.MissingField, [f], none⟩) ∧
    (∀ x : Value, f ∉ slotFields i.variant → (i.toRaw.set f x).get f = some x →
      construct c (i.toRaw.set f x) = .error ⟨.UnexpectedField, [f], some x⟩)

/-- R106: a BR request without `n`, `z` or `p` is refused, with that `MissingField` among the violations that apply, and it
is never read as false. -/
def Obligations.BrFlagsAreRequired : Prop :=
  ∀ (c : Config) (r : RawDescriptor), r.tag = .admitted .BR →
    (∀ f ∈ [FieldName.n, .z, .p], r.get f = none →
      ⟨.MissingField, [f], none⟩ ∈ violations c r ∧ ∃ e, construct c r = .error e) ∧
    (∀ (n z p : Bool) (off : Int), -256 ≤ off → off ≤ 255 → ∀ f ∈ [FieldName.n, .z, .p],
      construct c ((Instr.br n z p off).toRaw.clear f) = .error ⟨.MissingField, [f], none⟩)

/-- Every error reported has, by its kind, the cause, the variants, the fields and the value of R211's table, and the code
the table gives. The converse, that every such cause of an admitted tag is among the violations that apply, rests on R202 to
R205 and R207; that it puts the range violations of BOTH fields of a doubly filled pair in `V(raw)` is the model's reading
(DEDUCED, log entry 13). -/
def Obligations.ErrorRecordsFollowTheTable : Prop :=
  (∀ (c : Config) (r : RawDescriptor) (e : InvalidOperand), construct c r = .error e → ErrorCause c r e) ∧
  (∀ (c : Config) (r : RawDescriptor) (e : InvalidOperand), e ∈ violations c r ↔ ErrorCause c r e ∧
    (∀ t, r.tag = .admitted t → tagAdmitted c t = false → e.kind = .UnknownVariant)) ∧
  kindCode .MissingField = 1 ∧ kindCode .BothExclusivePresent = 2 ∧ kindCode .NeitherExclusivePresent = 3 ∧
  kindCode .RegisterOutOfRange = 4 ∧ kindCode .ImmediateOutOfRange = 5 ∧ kindCode .UnexpectedField = 6 ∧
  kindCode .UnknownVariant = 7

/-! ## The machine -/

/-- One step takes the next request: a validated descriptor `i` is executed by `exec` with the request taken from the port
and nothing else changed; with no request presented nothing happens (DESIGN CHOICE, log entry 2). -/
def Obligations.StepRunsTheConstructedInstruction : Prop :=
  (∀ (s : State) (r : RawDescriptor) (rest : List RawDescriptor) (i : Instr),
    s.requests = r :: rest → construct s.config r = .ok i → step s = exec i { s with requests := rest }) ∧
  (∀ s : State, s.requests = [] → step s = .next s)

/-- A step after `withFetchWord` runs exactly the instruction the decoder reads from the word (log entry 4). -/
def Obligations.StepRunsTheFetchedWord : Prop :=
  ∀ (s : State) (w : Word16) (i : Instr), decode s.config w = .ok i →
    step (s.withFetchWord 16 w.toNat) = exec i s ∧
    step (s.withFetchWord 16 w.toNat) = .next (s.respond (.ok w))

/-- R214, R209: a refused request's whole effect is the response `err e`; nothing is saved, no word is produced, and the
requests that wait are untouched. -/
def Obligations.RefusalOnlyAnswersTheError : Prop :=
  ∀ (s : State) (r : RawDescriptor) (rest : List RawDescriptor) (e : InvalidOperand),
    s.requests = r :: rest → construct s.config r = .error e →
    step s = .next { config := s.config, requests := rest, responses := s.responses ++ [.err e] } ∧
    (Response.err e).wordOut = none

/-- R19, R245: serving the requests that wait, one step each, gives each in order the response `run` gives it, and leaves
nothing else changed. -/
def Obligations.ServingTheQueueIsRun : Prop :=
  ∀ s : State, Host.Core.run core s.requests.length s =
    .next { s with
      requests := []
      responses := s.responses ++ s.requests.map (fun r => Response.ofResult (run s.config r)) }

/-- R46: the same requests presented in another order receive the same responses, and each the response it receives when it
is presented alone. -/
def Obligations.ResponsesDoNotDependOnOrder : Prop :=
  ∀ s t : State, s.config = t.config → s.responses = [] → t.responses = [] → s.requests.Perm t.requests →
    ∃ s' t' : State, Host.Core.run core s.requests.length s = .next s' ∧
      Host.Core.run core t.requests.length t = .next t' ∧
      (s.requests.zip s'.responses).Perm (t.requests.zip t'.responses) ∧
      (∀ p ∈ s.requests.zip s'.responses, ∃ u : State,
        Host.Core.run core 1 { s with requests := [p.1] } = .next u ∧ u.responses = [p.2]) ∧
      s'.responses.length = s.requests.length ∧ t'.responses.length = t.requests.length

/-- R20, R27: whatever went before and whatever waits behind it, a request receives the response its own fields and the
configuration give it. -/
def Obligations.ResponseDependsOnTheRequestAlone : Prop :=
  ∀ (s t : State) (r : RawDescriptor) (before after before' after' : List RawDescriptor),
    s.config = t.config → s.requests = before ++ r :: after → t.requests = before' ++ r :: after' →
    ∃ s' t' : State, Host.Core.run core (before.length + 1) s = .next s' ∧
      Host.Core.run core (before'.length + 1) t = .next t' ∧
      s'.responses.getLast? = some (Response.ofResult (run s.config r)) ∧
      t'.responses.getLast? = s'.responses.getLast?

/-- R201, R44: every step on a waiting request succeeds and gives exactly one response, a whole word and no error, or an
error with a code of 1 to 7 and no word. No step faults or is refused; that a step with no request presented answers a next
state is the model's choice (DESIGN CHOICE, log entry 2). -/
def Obligations.EveryRequestGetsOneResponse : Prop :=
  (∀ s : State, ∃ t, step s = .next t) ∧
  (∀ (s t : State) (r : RawDescriptor) (rest : List RawDescriptor), s.requests = r :: rest → step s = .next t →
    t.requests = rest ∧ ∃ x : Response, t.responses = s.responses ++ [x] ∧
      ((∃ w, x.okBit = true ∧ x.wordOut = some w ∧ x.errKind = none ∧ x.errField = none ∧ x.errValue = none) ∨
       (∃ k fs, x.okBit = false ∧ x.wordOut = none ∧ x.errKind = some k ∧ 1 ≤ k ∧ k ≤ 7 ∧ x.errField = some fs)))

/-- The frame of every instruction: the parameters, the waiting requests and the responses already given are unchanged, and
one word is added. There is no register, flag or memory to change (R20, R100). -/
def Obligations.ExecFrame : Prop :=
  ∀ (i : Instr) (s t : State), exec i s = .next t →
    t.config = s.config ∧ t.requests = s.requests ∧ ∃ w : Word16, t.responses = s.responses ++ [.ok w]

/-- Every step keeps the invariant: legal parameters, waiting requests that fit the buses, and only legal responses; in
particular the block never gives a word outside the image of `encode` (R75). -/
def Obligations.StepKeepsTheInvariant : Prop :=
  ∀ s t : State, s.inv = true → step s = .next t → t.inv = true

/-- The invariant holds at the model's `State.reset` (DEDUCED, log entry 11), and presenting a request, which drops one that
does not fit the buses (DESIGN CHOICE, log entry 9), keeps it. -/
def Obligations.InvariantHoldsAtResetAndPresent : Prop :=
  State.reset.inv = true ∧ ∀ (s : State) (r : RawDescriptor), s.inv = true → (s.present r).inv = true

/-- R25: the parameters do not change while the block operates, however many steps it takes. -/
def Obligations.ParametersNeverChange : Prop :=
  ∀ (n : Nat) (s t : State), Host.Core.run core n s = .next t → t.config = s.config

/-- The block has no reset (R240). That the model's `State.reset` is the block before its first request, at the default
parameters with both ports empty, is the model's reading (DEDUCED, log entry 11), and that steps with no request presented
leave it so is the model's choice (DESIGN CHOICE, log entry 2). The last clause is R240's: the first request receives the
response it would receive after any other requests. -/
def Obligations.ResetHoldsNothing : Prop :=
  State.reset.config = Config.default ∧ State.reset.requests = [] ∧ State.reset.responses = [] ∧
  (∀ n : Nat, Host.Core.run core n State.reset = .next State.reset) ∧
  (∀ (r : RawDescriptor) (earlier : List RawDescriptor), ∃ s t : State,
    Host.Core.run core 1 { State.reset with requests := [r] } = .next s ∧
    Host.Core.run core (earlier.length + 1) { State.reset with requests := earlier ++ [r] } = .next t ∧
    s.responses.getLast? = t.responses.getLast? ∧ s.responses.length = 1)

/-- Decision D3: with operand buses of a legal width every admitted request reaches the block, and so does the request with
the nearest value outside the range of any field, on each side. The form of the check is the model's (log entry 9). -/
def Obligations.LegalBusWidthsCarryEveryRequest : Prop :=
  ∀ (c : Config) (i : Instr), c.wf = true → i.wellFormed c = true →
    i.toRaw.fits c = true ∧
    (∀ f lo hi, statedRange c i.variant f = some (lo, hi) →
      (i.toRaw.setInt f (lo - 1)).fits c = true ∧ (i.toRaw.setInt f (hi + 1)).fits c = true) ∧
    (∀ f ∈ [FieldName.dr, .sr, .sr1, .sr2, .base_r],
      (i.toRaw.setInt f (-1)).fits c = true ∧ (i.toRaw.setInt f 8).fits c = true)

/-- Decision D14, R41: in either byte order, the bytes of a caller's image decode, word by word, to the descriptors the words
came from, up to the words two forms share (log entry 6). -/
def Obligations.ImageBytesDecodeInEitherOrder : Prop :=
  ∀ (c : Config) (o : ImageByteOrder) (i : Instr) (rest : List Byte), i.wellFormed c = true →
    decodeBytes c o (wordBytes o (encode c i) ++ rest) = .ok (i.canonical c, rest)
end

