-- ==== Sys2Proof/Laws/Bits.lean ====
section
/-! SUPPORT. The laws of the primitives of R13 and R15: bounds, and recovery of a value in range from its pattern. -/

namespace Sys2Proof

theorem mask_lt (N : Nat) (v : Int) : mask N v < 2 ^ N := by
  have hpos : (0 : Int) < ((2 ^ N : Nat) : Int) := by exact_mod_cast Nat.two_pow_pos N
  have h := Int.emod_lt_of_pos v hpos
  have h0 := Int.emod_nonneg v (ne_of_gt hpos)
  unfold mask
  omega

/-- A value already in `[0, 2^N - 1]` is its own pattern (R64, R69). -/
theorem mask_eq_of_inU {N : Nat} {v : Int} (h : inU N v) : (mask N v : Int) = v := by
  obtain ⟨h0, h1⟩ := h
  unfold mask
  rw [Int.emod_eq_of_lt h0 (by omega)]
  omega

theorem place_lt (v : Int) (N p : Nat) : place v N p < 2 ^ (N + p) := by
  unfold place
  rw [Nat.shiftLeft_eq, pow_add]
  exact Nat.mul_lt_mul_of_pos_right (mask_lt N v) (Nat.two_pow_pos p)

/-- A field that ends at or below bit 15 stays below `2^16`. -/
theorem place_lt_word {v : Int} {N p : Nat} (h : N + p ≤ 16) : place v N p < 2 ^ 16 :=
  lt_of_lt_of_le (place_lt v N p) (Nat.pow_le_pow_right (by decide) h)

theorem bit_lt_two (b : Bool) : bit b < 2 := by cases b <;> decide

theorem field_lt (w : Word16) (hi lo : Nat) : field w hi lo < 2 ^ (hi - lo + 1) :=
  Nat.mod_lt _ (Nat.two_pow_pos _)

/-- Two's-complement packing is undone by sign extension on the field's own range (R68). -/
theorem sext_mask {N : Nat} {v : Int} (hN : 0 < N) (h : inS N v) : sext N (mask N v) = v := by
  obtain ⟨k, rfl⟩ : ∃ k, N = k + 1 := ⟨N - 1, by omega⟩
  obtain ⟨h0, h1⟩ := h
  simp only [Nat.add_sub_cancel] at h0 h1
  have hk : (2 ^ (k + 1) : Nat) = 2 * 2 ^ k := by rw [pow_succ]; ring
  have hpos : 0 < 2 ^ k := Nat.two_pow_pos k
  unfold sext mask
  simp only [Nat.add_sub_cancel, hk]
  generalize 2 ^ k = m at *
  by_cases hv : 0 ≤ v
  · have e : v % ((2 * m : Nat) : Int) = v := Int.emod_eq_of_lt hv (by omega)
    rw [e, if_pos (by omega)]
    omega
  · have e : v % ((2 * m : Nat) : Int) = v + ((2 * m : Nat) : Int) := by
      rw [← Int.add_emod_right]
      exact Int.emod_eq_of_lt (by omega) (by omega)
    rw [e, if_neg (by omega)]
    omega

end Sys2Proof
end

