-- ==== Sys2Proof/Laws/Construct.lean ====
section
/-! SUPPORT. Construction as its callers use it: the violation `ERROR_SELECT` picks is one that applies, whatever the
free choice is, and `construct` by the list of violations. -/

namespace Sys2Proof.Machine

theorem selectViolation_specOrder {c : Config} (h : c.errorSelect = .specOrder) (e : InvalidOperand)
    (es : List InvalidOperand) : selectViolation c e es = e := by
  simp [selectViolation, h]

/-- A single violation is the one reported, under every `ERROR_SELECT`. -/
theorem selectViolation_single (c : Config) (e : InvalidOperand) : selectViolation c e [] = e := by
  unfold selectViolation
  split
  · rfl
  · simp [Nat.mod_one]

/-- Every `ERROR_SELECT` picks a member of the set it is given (R207). -/
theorem selectViolation_mem (c : Config) (e : InvalidOperand) (es : List InvalidOperand) :
    selectViolation c e es ∈ e :: es := by
  unfold selectViolation
  split
  · exact List.mem_cons_self
  · next k _ =>
    have hlt : Config.freeChoice k (e :: es) % (e :: es).length < (e :: es).length := Nat.mod_lt _ (by simp)
    rw [List.getD_eq_getElem _ _ hlt]
    exact List.getElem_mem hlt

theorem construct_of_no_violation {c : Config} {r : RawDescriptor} (h : violations c r = []) :
    construct c r = buildRequest r := by
  simp [construct, h]

theorem construct_of_violation {c : Config} {r : RawDescriptor} {e : InvalidOperand} {es : List InvalidOperand}
    (h : violations c r = e :: es) : construct c r = .error (selectViolation c e es) := by
  simp [construct, h]

@[simp] theorem need_some {α : Type} (f : FieldName) (v : α) : need f (some v) = .ok v := rfl

@[simp] theorem need_none {α : Type} (f : FieldName) : need f (none : Option α) = .error ⟨.MissingField, [f], none⟩ := rfl

theorem violations_of_admitted {c : Config} {r : RawDescriptor} {t : VariantTag} (ht : r.tag = .admitted t)
    (ha : tagAdmitted c t = true) : violations c r =
      fieldOrder.filterMap (unexpectedAt t r) ++ (slots t).filterMap (presenceAt r) ++
        (slotFields t).filterMap (rangeAt c t r) := by
  simp [violations, ht, ha]

theorem violations_of_not_admitted {c : Config} {r : RawDescriptor} {t : VariantTag} (ht : r.tag = .admitted t)
    (ha : tagAdmitted c t = false) : violations c r = [unknownVariant (.admitted t)] := by
  simp [violations, ht, ha]

theorem violations_of_other {c : Config} {r : RawDescriptor} {k : Nat} (ht : r.tag = .other k) :
    violations c r = [unknownVariant (.other k)] := by
  simp [violations, ht]

end Sys2Proof.Machine
end

