-- ==== Sys2Proof/Laws/State.lean ====
section
/-! SUPPORT. The fields of State after each update: `respond`, `present`, and the state after reset. -/

namespace Sys2Proof.Machine

@[simp] theorem State.respond_config (x : Response) (s : State) : (s.respond x).config = s.config := rfl

@[simp] theorem State.respond_requests (x : Response) (s : State) : (s.respond x).requests = s.requests := rfl

@[simp] theorem State.respond_responses (x : Response) (s : State) :
    (s.respond x).responses = s.responses ++ [x] := rfl

@[simp] theorem State.reset_config : State.reset.config = Config.default := rfl

@[simp] theorem State.reset_requests : State.reset.requests = [] := rfl

@[simp] theorem State.reset_responses : State.reset.responses = [] := rfl

@[simp] theorem State.present_config (r : RawDescriptor) (s : State) : (s.present r).config = s.config := by
  unfold State.present; split <;> rfl

@[simp] theorem State.present_responses (r : RawDescriptor) (s : State) : (s.present r).responses = s.responses := by
  unfold State.present; split <;> rfl

/-- A request that fits the operand buses waits behind the ones already presented. -/
theorem State.present_requests_of_fits {r : RawDescriptor} {s : State} (h : r.fits s.config = true) :
    (s.present r).requests = s.requests ++ [r] := by
  simp [State.present, h]

/-- A request that does not fit never reaches the block. -/
theorem State.present_of_not_fits {r : RawDescriptor} {s : State} (h : r.fits s.config = false) :
    s.present r = s := by
  simp [State.present, h]

end Sys2Proof.Machine
end

