-- ==== Sys2Proof/Laws/Ops.lean ====
section
/-! SUPPORT. Everything the shared operations can do: `emit` and `raiseInvalid`, and the selection of a violation. -/

namespace Sys2Proof.Machine

/-- A value of 16 bits is answered as the word it is. -/
theorem emit_of_lt {value : Nat} (h : value < 2 ^ 16) (s : State) :
    emit value s = .next (s.respond (.ok (BitVec.ofNat 16 value))) := if_pos h

/-- If `emit` answers a next state, that state is the old one with the word answered. -/
theorem emit_next {value : Nat} {s t : State} (h : emit value s = .next t) :
    value < 2 ^ 16 ∧ t = s.respond (.ok (BitVec.ofNat 16 value)) := by
  unfold emit at h
  split at h
  · next hlt => exact ⟨hlt, (Host.Outcome.next.inj h).symm⟩
  · cases h

/-- Taking the block's exception always succeeds, and its whole effect is the response. -/
@[simp] theorem raiseInvalid_eq (e : InvalidOperand) (s : State) :
    raiseInvalid e s = .next (s.respond (.err e)) := rfl

end Sys2Proof.Machine
end

