-- ==== Sys2Proof/Laws/Exec.lean ====
section
/-! SUPPORT. The word value of every form stays below `2^16`, so every meaning answers it: one lemma per meaning, which
proofs cite instead of unfolding it. -/

namespace Sys2Proof.Machine

theorem or_lt_word {a b : Nat} (ha : a < 2 ^ 16) (hb : b < 2 ^ 16) : a ||| b < 2 ^ 16 := Nat.or_lt_two_pow ha hb

theorem operateWord_lt {base : Nat} (hb : base < 2 ^ 16) (dr sr1 : Int) (o : Op2) :
    operateWord base dr sr1 o < 2 ^ 16 := by
  cases o with
  | reg _ =>
    exact or_lt_word (or_lt_word (or_lt_word hb (place_lt_word (by decide))) (place_lt_word (by decide)))
      (place_lt_word (by decide))
  | imm _ =>
    exact or_lt_word (or_lt_word (or_lt_word (or_lt_word hb (place_lt_word (by decide))) (place_lt_word (by decide)))
      (by decide)) (place_lt_word (by decide))

theorem andBase_lt (a : AndOpcode) : a.bits <<< 12 < 2 ^ 16 := by cases a <;> decide

theorem conditionMask_lt (n z p : Bool) : conditionMask n z p < 2 ^ 16 := by revert n z p; decide

theorem shfWord_lt (dr sr : Int) (k : ShiftType) (a : Int) : shfWord dr sr k a < 2 ^ 16 :=
  or_lt_word (or_lt_word (or_lt_word (or_lt_word (by decide) (place_lt_word (by decide))) (place_lt_word (by decide)))
    (by cases k <;> decide)) (place_lt_word (by decide))

theorem memWord_lt {base : Nat} (hb : base < 2 ^ 16) (r b off : Int) : memWord base r b off < 2 ^ 16 :=
  or_lt_word (or_lt_word (or_lt_word hb (place_lt_word (by decide))) (place_lt_word (by decide)))
    (place_lt_word (by decide))

theorem execAddReg_eq (dr sr1 sr2 : Int) (s : State) : execAddReg dr sr1 sr2 s =
    .next (s.respond (.ok (BitVec.ofNat 16 (operateWord 0x1000 dr sr1 (.reg sr2))))) :=
  emit_of_lt (operateWord_lt (by decide) _ _ _) s

theorem execAddImm_eq (dr sr1 imm5 : Int) (s : State) : execAddImm dr sr1 imm5 s =
    .next (s.respond (.ok (BitVec.ofNat 16 (operateWord 0x1000 dr sr1 (.imm imm5))))) :=
  emit_of_lt (operateWord_lt (by decide) _ _ _) s

theorem execAndReg_eq (dr sr1 sr2 : Int) (s : State) : execAndReg dr sr1 sr2 s =
    .next (s.respond (.ok (BitVec.ofNat 16 (operateWord (s.config.andOpcode.bits <<< 12) dr sr1 (.reg sr2))))) :=
  emit_of_lt (operateWord_lt (andBase_lt _) _ _ _) s

theorem execAndImm_eq (dr sr1 imm5 : Int) (s : State) : execAndImm dr sr1 imm5 s =
    .next (s.respond (.ok (BitVec.ofNat 16 (operateWord (s.config.andOpcode.bits <<< 12) dr sr1 (.imm imm5))))) :=
  emit_of_lt (operateWord_lt (andBase_lt _) _ _ _) s

theorem execBr_eq (n z p : Bool) (off : Int) (s : State) : execBr n z p off s =
    .next (s.respond (.ok (BitVec.ofNat 16 (0x0000 ||| conditionMask n z p ||| place off 9 0)))) :=
  emit_of_lt (or_lt_word (or_lt_word (by decide) (conditionMask_lt n z p)) (place_lt_word (by decide))) s

theorem execJmp_eq (b : Int) (s : State) : execJmp b s =
    .next (s.respond (.ok (BitVec.ofNat 16 (0xC000 ||| place b 3 6)))) :=
  emit_of_lt (or_lt_word (by decide) (place_lt_word (by decide))) s

theorem execNotReg_eq (dr sr : Int) (s : State) : execNotReg dr sr s =
    .next (s.respond (.ok (BitVec.ofNat 16 (0x903F ||| place dr 3 9 ||| place sr 3 6)))) :=
  emit_of_lt (or_lt_word (or_lt_word (by decide) (place_lt_word (by decide))) (place_lt_word (by decide))) s

theorem execXorReg_eq (dr sr1 sr2 : Int) (s : State) : execXorReg dr sr1 sr2 s =
    .next (s.respond (.ok (BitVec.ofNat 16 (operateWord 0x9000 dr sr1 (.reg sr2))))) :=
  emit_of_lt (operateWord_lt (by decide) _ _ _) s

theorem execXorImm_eq (dr sr1 imm5 : Int) (s : State) : execXorImm dr sr1 imm5 s =
    .next (s.respond (.ok (BitVec.ofNat 16 (operateWord 0x9000 dr sr1 (.imm imm5))))) :=
  emit_of_lt (operateWord_lt (by decide) _ _ _) s

theorem execLshf_eq (dr sr a : Int) (s : State) : execLshf dr sr a s =
    .next (s.respond (.ok (BitVec.ofNat 16 (shfWord dr sr .LSHF a)))) := emit_of_lt (shfWord_lt _ _ _ _) s

theorem execRshfl_eq (dr sr a : Int) (s : State) : execRshfl dr sr a s =
    .next (s.respond (.ok (BitVec.ofNat 16 (shfWord dr sr .RSHFL a)))) := emit_of_lt (shfWord_lt _ _ _ _) s

theorem execRshfa_eq (dr sr a : Int) (s : State) : execRshfa dr sr a s =
    .next (s.respond (.ok (BitVec.ofNat 16 (shfWord dr sr .RSHFA a)))) := emit_of_lt (shfWord_lt _ _ _ _) s

theorem execLea_eq (dr off : Int) (s : State) : execLea dr off s =
    .next (s.respond (.ok (BitVec.ofNat 16 (0xE000 ||| place dr 3 9 ||| place off 9 0)))) :=
  emit_of_lt (or_lt_word (or_lt_word (by decide) (place_lt_word (by decide))) (place_lt_word (by decide))) s

theorem execLdw_eq (r b off : Int) (s : State) : execLdw r b off s =
    .next (s.respond (.ok (BitVec.ofNat 16 (memWord 0x6000 r b off)))) := emit_of_lt (memWord_lt (by decide) _ _ _) s

theorem execStw_eq (r b off : Int) (s : State) : execStw r b off s =
    .next (s.respond (.ok (BitVec.ofNat 16 (memWord 0x7000 r b off)))) := emit_of_lt (memWord_lt (by decide) _ _ _) s

theorem execLdb_eq (r b off : Int) (s : State) : execLdb r b off s =
    .next (s.respond (.ok (BitVec.ofNat 16 (memWord 0x2000 r b off)))) := emit_of_lt (memWord_lt (by decide) _ _ _) s

theorem execStb_eq (r b off : Int) (s : State) : execStb r b off s =
    .next (s.respond (.ok (BitVec.ofNat 16 (memWord 0x3000 r b off)))) := emit_of_lt (memWord_lt (by decide) _ _ _) s

theorem execJsr_eq (off : Int) (s : State) : execJsr off s =
    .next (s.respond (.ok (BitVec.ofNat 16 (0x4800 ||| place off 11 0)))) :=
  emit_of_lt (or_lt_word (by decide) (place_lt_word (by decide))) s

theorem execJsrr_eq (b : Int) (s : State) : execJsrr b s =
    .next (s.respond (.ok (BitVec.ofNat 16 (0x4000 ||| place b 3 6)))) :=
  emit_of_lt (or_lt_word (by decide) (place_lt_word (by decide))) s

theorem execTrap_eq (v : Int) (s : State) : execTrap v s =
    .next (s.respond (.ok (BitVec.ofNat 16 (0xF000 ||| place v 8 0)))) :=
  emit_of_lt (or_lt_word (by decide) (place_lt_word (by decide))) s

theorem execRti_eq (s : State) : execRti s = .next (s.respond (.ok 0x8000#16)) := emit_of_lt (by decide) s

end Sys2Proof.Machine
end

