-- ==== Sys2Proof/Laws/PerInstr.lean ====
section
/-! SUPPORT. Statements about every instruction, one lemma per constructor. -/

namespace Sys2Proof.Laws.RequestCarriesItsSlots

/-- The field-set invariant (10_state.md R29): the request of a descriptor carries one field of each slot of its variant,
and no other field. -/
def Statement (i : Instr) : Prop :=
  (slots i.variant).all (fun s => (s.fields.filter fun f => (i.toRaw.get f).isSome).length == 1) = true ∧
  fieldOrder.all (fun f => !(i.toRaw.get f).isSome || decide (f ∈ slotFields i.variant)) = true

theorem addReg (dr sr1 sr2 : Int) : Statement (.addReg dr sr1 sr2) := ⟨rfl, rfl⟩

theorem addImm (dr sr1 imm5 : Int) : Statement (.addImm dr sr1 imm5) := ⟨rfl, rfl⟩

theorem andReg (dr sr1 sr2 : Int) : Statement (.andReg dr sr1 sr2) := ⟨rfl, rfl⟩

theorem andImm (dr sr1 imm5 : Int) : Statement (.andImm dr sr1 imm5) := ⟨rfl, rfl⟩

theorem br (n z p : Bool) (off : Int) : Statement (.br n z p off) := ⟨rfl, rfl⟩

theorem jmp (b : Int) : Statement (.jmp b) := ⟨rfl, rfl⟩

theorem notReg (dr sr : Int) : Statement (.notReg dr sr) := ⟨rfl, rfl⟩

theorem xorReg (dr sr1 sr2 : Int) : Statement (.xorReg dr sr1 sr2) := ⟨rfl, rfl⟩

theorem xorImm (dr sr1 imm5 : Int) : Statement (.xorImm dr sr1 imm5) := ⟨rfl, rfl⟩

theorem lshf (dr sr a : Int) : Statement (.lshf dr sr a) := ⟨rfl, rfl⟩

theorem rshfl (dr sr a : Int) : Statement (.rshfl dr sr a) := ⟨rfl, rfl⟩

theorem rshfa (dr sr a : Int) : Statement (.rshfa dr sr a) := ⟨rfl, rfl⟩

theorem lea (dr off : Int) : Statement (.lea dr off) := ⟨rfl, rfl⟩

theorem ldw (dr b off : Int) : Statement (.ldw dr b off) := ⟨rfl, rfl⟩

theorem stw (sr b off : Int) : Statement (.stw sr b off) := ⟨rfl, rfl⟩

theorem ldb (dr b off : Int) : Statement (.ldb dr b off) := ⟨rfl, rfl⟩

theorem stb (sr b off : Int) : Statement (.stb sr b off) := ⟨rfl, rfl⟩

theorem jsr (off : Int) : Statement (.jsr off) := ⟨rfl, rfl⟩

theorem jsrr (b : Int) : Statement (.jsrr b) := ⟨rfl, rfl⟩

theorem trap (v : Int) : Statement (.trap v) := ⟨rfl, rfl⟩

theorem rti : Statement .rti := ⟨rfl, rfl⟩

end Sys2Proof.Laws.RequestCarriesItsSlots
end

