-- ==== Sys2Proof/Laws/Step.lean ====
section
/-! SUPPORT. Everything one step can do. -/

namespace Sys2Proof.Machine

/-- The state while the request at the head of the port is served: that request taken, nothing else changed. -/
theorem step_cases {s t : State} (h : step s = .next t) :
    (s.requests = [] ∧ t = s) ∨
    (∃ r rest i, s.requests = r :: rest ∧ construct s.config r = .ok i ∧
      exec i { s with requests := rest } = .next t) ∨
    (∃ r rest e, s.requests = r :: rest ∧ construct s.config r = .error e ∧
      t = ({ s with requests := rest } : State).respond (.err e)) := by
  unfold step at h
  split at h
  · next hr => exact .inl ⟨hr, (Host.Outcome.next.inj h).symm⟩
  · next r rest hr =>
    split at h
    · next i hi => exact .inr (.inl ⟨r, rest, i, hr, hi, h⟩)
    · next e he => exact .inr (.inr ⟨r, rest, e, hr, he, (Host.Outcome.next.inj h).symm⟩)

end Sys2Proof.Machine
end

