-- ==== Sys2Proof/Tests/Slice0.lean ====
section
/-! SUPPORT. The model's own tests: words and responses from 95_test_vectors.md and from the formats of 30_encoding.md
R71, the smoke tests of `wellFormed`, and for every statement with hypotheses a witness that meets them all. -/

namespace Sys2Proof.Tests

open Sys2Proof Sys2Proof.Machine

/-! ## Helpers -/

/-- The response one step gives the only request presented to an instance with parameters `c`. -/
def served (c : Config) (r : RawDescriptor) : Option Response :=
  match step { config := c, requests := [r], responses := [] } with
  | .next t => t.responses.head?
  | .fault _ => none
  | .refused _ => none

/-- The descriptor construction yields, if any. -/
def built (c : Config) (r : RawDescriptor) : Option Instr :=
  match construct c r with
  | .ok i => some i
  | .error _ => none

/-- What the decoder reads, if anything. -/
def read (c : Config) (w : Word16) : Option Instr :=
  match decode c w with
  | .ok i => some i
  | .error _ => none

def and3 : Config := { Config.default with andOpcode := .sourceTable }
def jsr11 : Config := { Config.default with jsrRange := .eleven }
def signedFields : Config := { Config.default with unsignedFields := .signed }
def gkOff : Config := { Config.default with gkLayouts := .off }

/-! ## Well-formedness: each check refuses an ill-formed term -/

theorem test_wf_refuses_register_8 : Instr.wellFormed Config.default (.addReg 8 0 0) = false := by decide
theorem test_wf_refuses_negative_sr1 : Instr.wellFormed Config.default (.andReg 0 (-1) 0) = false := by decide
theorem test_wf_refuses_sr2 : Instr.wellFormed Config.default (.xorReg 0 0 8) = false := by decide
theorem test_wf_refuses_imm5 : Instr.wellFormed Config.default (.addImm 0 0 16) = false ∧
    Instr.wellFormed Config.default (.andImm 0 0 (-17)) = false ∧
    Instr.wellFormed Config.default (.xorImm 0 0 16) = false := by decide
theorem test_wf_refuses_offset9 : Instr.wellFormed Config.default (.br true true true 256) = false ∧
    Instr.wellFormed Config.default (.lea 0 (-257)) = false := by decide
theorem test_wf_refuses_base : Instr.wellFormed Config.default (.jmp 8) = false ∧
    Instr.wellFormed Config.default (.jsrr (-1)) = false := by decide
theorem test_wf_refuses_not_register : Instr.wellFormed Config.default (.notReg 0 8) = false := by decide
theorem test_wf_refuses_amount4 : Instr.wellFormed Config.default (.lshf 0 0 16) = false ∧
    Instr.wellFormed Config.default (.rshfl 0 0 (-1)) = false ∧
    Instr.wellFormed signedFields (.rshfa 0 0 8) = false := by decide
theorem test_wf_refuses_offset6 : Instr.wellFormed Config.default (.ldw 0 0 32) = false ∧
    Instr.wellFormed Config.default (.stw 0 0 (-33)) = false ∧ Instr.wellFormed Config.default (.ldb 0 0 32) = false ∧
    Instr.wellFormed Config.default (.stb 0 8 0) = false := by decide
theorem test_wf_refuses_jsr_range : Instr.wellFormed Config.default (.jsr 256) = false ∧
    Instr.wellFormed jsr11 (.jsr 1024) = false := by decide
theorem test_wf_refuses_trapvect8 : Instr.wellFormed Config.default (.trap 256) = false ∧
    Instr.wellFormed signedFields (.trap 128) = false := by decide
theorem test_wf_refuses_variant_not_admitted : Instr.wellFormed gkOff .rti = false := by decide
theorem test_config_wf_refuses_narrow_bus : Config.wf { Config.default with inWidth := some 11 } = false := by decide

/-! ## Decoding: each constructor's word, bit by bit from the formats of R71 -/

theorem test_decode_addReg : decodeTableWord 16 0b0001_001_010_0_00_011 = some (.addReg 1 2 3) := by decide
theorem test_decode_addImm : decodeTableWord 16 0b0001_001_010_1_11111 = some (.addImm 1 2 (-1)) := by decide
theorem test_decode_andReg : decodeTableWord 16 0b0101_110_110_0_00_111 = some (.andReg 6 6 7) := by decide
theorem test_decode_andImm : decodeTableWord 16 0b0101_111_110_1_10000 = some (.andImm 7 6 (-16)) := by decide
theorem test_decode_br : decodeTableWord 16 0b0000_0_1_0_100000000 = some (.br false true false (-256)) := by decide
theorem test_decode_jmp : decodeTableWord 16 0b1100_000_110_000000 = some (.jmp 6) := by decide
theorem test_decode_notReg : decodeTableWord 16 0b1001_111_000_111111 = some (.notReg 7 0) := by decide
theorem test_decode_xorReg : decodeTableWord 16 0b1001_010_011_0_00_100 = some (.xorReg 2 3 4) := by decide
theorem test_decode_xorImm : decodeTableWord 16 0b1001_101_110_1_01010 = some (.xorImm 5 6 10) := by decide
theorem test_decode_lshf : decodeTableWord 16 0b1101_111_000_00_1000 = some (.lshf 7 0 8) := by decide
theorem test_decode_rshfl : decodeTableWord 16 0b1101_011_100_01_0001 = some (.rshfl 3 4 1) := by decide
theorem test_decode_rshfa : decodeTableWord 16 0b1101_001_010_11_0011 = some (.rshfa 1 2 3) := by decide
theorem test_decode_lea : decodeTableWord 16 0b1110_010_000000100 = some (.lea 2 4) := by decide
theorem test_decode_ldw : decodeTableWord 16 0b0110_011_010_100000 = some (.ldw 3 2 (-32)) := by decide
theorem test_decode_stw : decodeTableWord 16 0b0111_000_111_111111 = some (.stw 0 7 (-1)) := by decide
theorem test_decode_ldb : decodeTableWord 16 0b0010_100_010_000001 = some (.ldb 4 2 1) := by decide
theorem test_decode_stb : decodeTableWord 16 0b0011_111_000_011111 = some (.stb 7 0 31) := by decide
theorem test_decode_jsr : decodeTableWord 16 0b0100_1_11100000000 = some (.jsr (-256)) := by decide
theorem test_decode_jsrr : decodeTableWord 16 0b0100_000_101_000000 = some (.jsrr 5) := by decide
theorem test_decode_trap : decodeTableWord 16 0b1111_0000_00100101 = some (.trap 0x25) := by decide
theorem test_decode_rti : decodeTableWord 16 0b1000_000000000000 = some .rti := by decide

/-- R73: at `AND_OPCODE = 0b0011` the opcode 0011 holds AND and, where bits [4:3] of a register form are not zero, STB. -/
theorem test_decode_opcode3 : read and3 0x3283#16 = some (.andReg 1 2 3) ∧
    read and3 0b0011_001_010_001_000#16 = some (.stb 1 2 8) ∧ read Config.default 0x3283#16 = some (.stb 1 2 3) := by
  decide

/-- R75: words the encoder never produces are refused. -/
theorem test_decode_refuses : decodeTableWord 16 0xA000 = none ∧ decodeTableWord 16 0xB000 = none ∧
    decodeTableWord 16 0x1008 = none ∧ decodeTableWord 16 0xD020 = none ∧ decodeTableWord 16 0xC001 = none ∧
    decodeTableWord 16 0x4200 = none ∧ decodeTableWord 16 0xF100 = none ∧ decodeTableWord 16 0x8001 = none := by decide

/-! ## The word each form gives (95_test_vectors.md) -/

theorem test_add_reg : served Config.default { tag := .admitted .ADD, dr := some 7, sr1 := some 7, sr2 := some 7 } =
    some (.ok 0x1FC7#16) := by decide
theorem test_add_imm : served Config.default { tag := .admitted .ADD, dr := some 1, sr1 := some 2, imm5 := some (-1) } =
    some (.ok 0x12BF#16) := by decide
theorem test_and_reg : served Config.default { tag := .admitted .AND, dr := some 1, sr1 := some 2, sr2 := some 3 } =
    some (.ok 0x5283#16) := by decide
theorem test_and_imm_source_table : served and3 { tag := .admitted .AND, dr := some 7, sr1 := some 6, imm5 := some (-16) } =
    some (.ok 0x3FB0#16) := by decide
theorem test_br : served Config.default
    { tag := .admitted .BR, n := some true, z := some false, p := some false, pc_offset := some 5 } =
    some (.ok 0x0805#16) := by decide
theorem test_br_backward : served Config.default
    { tag := .admitted .BR, n := some false, z := some false, p := some true, pc_offset := some (-3) } =
    some (.ok 0x03FD#16) := by decide
theorem test_jmp : served Config.default { tag := .admitted .JMP, base_r := some 7 } = some (.ok 0xC1C0#16) := by decide
theorem test_not : served Config.default { tag := .admitted .NOT, dr := some 7, sr := some 0 } =
    some (.ok 0x9E3F#16) := by decide
theorem test_xor_reg : served Config.default { tag := .admitted .XOR, dr := some 2, sr1 := some 3, sr2 := some 4 } =
    some (.ok 0x94C4#16) := by decide
theorem test_xor_imm : served Config.default { tag := .admitted .XOR, dr := some 5, sr1 := some 6, imm5 := some 10 } =
    some (.ok 0x9BAA#16) := by decide
theorem test_lshf : served Config.default
    { tag := .admitted .SHF, dr := some 7, sr := some 0, shift_type := some .LSHF, amount4 := some 8 } =
    some (.ok 0xDE08#16) := by decide
theorem test_rshfl : served Config.default
    { tag := .admitted .SHF, dr := some 3, sr := some 4, shift_type := some .RSHFL, amount4 := some 1 } =
    some (.ok 0xD711#16) := by decide
theorem test_rshfa : served Config.default
    { tag := .admitted .SHF, dr := some 7, sr := some 7, shift_type := some .RSHFA, amount4 := some 15 } =
    some (.ok 0xDFFF#16) := by decide
theorem test_shf_signed : served signedFields
    { tag := .admitted .SHF, dr := some 0, sr := some 0, shift_type := some .LSHF, amount4 := some (-1) } =
    some (.ok 0xD00F#16) := by decide
theorem test_lea : served Config.default { tag := .admitted .LEA, dr := some 7, pc_offset := some (-256) } =
    some (.ok 0xEF00#16) := by decide
theorem test_ldw : served Config.default { tag := .admitted .LDW, dr := some 7, base_r := some 6, offset6 := some 31 } =
    some (.ok 0x6F9F#16) := by decide
theorem test_stw : served Config.default { tag := .admitted .STW, sr := some 0, base_r := some 7, offset6 := some (-1) } =
    some (.ok 0x71FF#16) := by decide
theorem test_ldb : served Config.default { tag := .admitted .LDB, dr := some 1, base_r := some 5, boffset6 := some (-32) } =
    some (.ok 0x2360#16) := by decide
theorem test_stb : served Config.default { tag := .admitted .STB, sr := some 7, base_r := some 0, boffset6 := some 31 } =
    some (.ok 0x3E1F#16) := by decide
theorem test_jsr : served Config.default { tag := .admitted .JSR, pc_offset := some (-256) } =
    some (.ok 0x4F00#16) := by decide
theorem test_jsr_11 : served jsr11 { tag := .admitted .JSR, pc_offset := some 1023 } = some (.ok 0x4BFF#16) := by decide
theorem test_jsrr : served Config.default { tag := .admitted .JSRR, base_r := some 5 } = some (.ok 0x4140#16) := by decide
theorem test_trap : served Config.default { tag := .admitted .TRAP, trapvect8 := some 255 } =
    some (.ok 0xF0FF#16) := by decide
theorem test_rti : served Config.default { tag := .admitted .RTI } = some (.ok 0x8000#16) := by decide

/-! ## Refusals (95_test_vectors.md) -/

theorem test_missing_flag : served Config.default
    { tag := .admitted .BR, n := some true, z := some false, pc_offset := some 0 } =
    some (.err ⟨.MissingField, [.p], none⟩) := by decide
theorem test_both_present : served Config.default
    { tag := .admitted .ADD, dr := some 1, sr1 := some 2, sr2 := some 3, imm5 := some (-1) } =
    some (.err ⟨.BothExclusivePresent, [.sr2, .imm5], none⟩) := by decide
theorem test_neither_present : served Config.default { tag := .admitted .AND, dr := some 1, sr1 := some 2 } =
    some (.err ⟨.NeitherExclusivePresent, [.sr2, .imm5], none⟩) := by decide
theorem test_register_range : served Config.default { tag := .admitted .STB, sr := some 1, base_r := some 8, boffset6 := some 0 } =
    some (.err ⟨.RegisterOutOfRange, [.base_r], some (.int 8)⟩) := by decide
theorem test_immediate_range : served Config.default { tag := .admitted .JSR, pc_offset := some 256 } =
    some (.err ⟨.ImmediateOutOfRange, [.pc_offset], some (.int 256)⟩) := by decide
theorem test_unexpected_flag : served Config.default
    { tag := .admitted .ADD, dr := some 1, sr1 := some 2, sr2 := some 3, z := some false } =
    some (.err ⟨.UnexpectedField, [.z], some (.bool false)⟩) := by decide
theorem test_unknown_tag : served Config.default { tag := .other 99, sr1 := some 1 } =
    some (.err ⟨.UnknownVariant, [], some (.tag (.other 99))⟩) := by decide
theorem test_gk_off : served gkOff { tag := .admitted .LEA, dr := some 1, pc_offset := some 0 } =
    some (.err ⟨.UnknownVariant, [], some (.tag (.admitted .LEA))⟩) := by decide
theorem test_presence_before_ranges : served Config.default { tag := .admitted .ADD, dr := some 8, imm5 := some 16 } =
    some (.err ⟨.MissingField, [.sr1], none⟩) := by decide
theorem test_three_violations : violations Config.default { tag := .admitted .ADD, dr := some 8, imm5 := some 16 } =
    [⟨.MissingField, [.sr1], none⟩, ⟨.RegisterOutOfRange, [.dr], some (.int 8)⟩,
      ⟨.ImmediateOutOfRange, [.imm5], some (.int 16)⟩] := by decide

/-! ## The fetch entry and the ports -/

theorem test_withFetchWord : (State.reset.withFetchWord 16 0x1283).requests =
    [{ tag := .admitted .ADD, dr := some 1, sr1 := some 2, sr2 := some 3 }] := by decide
theorem test_present_refuses_wide : (State.present { tag := .admitted .TRAP, trapvect8 := some 2048 }
    { State.reset with config := { Config.default with inWidth := some 12 } }).requests = [] := by decide
theorem test_word_bytes : wordBytes .littleEndian 0x1283#16 = [0x83#8, 0x12#8] ∧
    wordBytes .bigEndian 0x1283#16 = [0x12#8, 0x83#8] := by decide

/-! ## Witnesses: each statement's hypotheses are met -/

/-- A state with one request waiting. -/
def waiting (c : Config) (r : RawDescriptor) : State := { config := c, requests := [r], responses := [] }

def addRequest : RawDescriptor := { tag := .admitted .ADD, dr := some 1, sr1 := some 2, sr2 := some 3 }
def badRequest : RawDescriptor := { tag := .admitted .ADD, dr := some 8, sr1 := some 2, sr2 := some 3 }

theorem witness_DecodeOfEncodeIsCanonical : Instr.wellFormed Config.default (.addImm 7 0 (-16)) = true ∧
    Instr.canonical Config.default (.xorImm 1 2 (-1)) ≠ .xorImm 1 2 (-1) ∧
    Instr.canonical and3 (.stb 1 2 3) ≠ .stb 1 2 3 ∧ Instr.canonical and3 (.stb 1 2 (-32)) ≠ .stb 1 2 (-32) := by decide
theorem witness_EncodeOfDecodeIsTheWord : read Config.default 0x12BF#16 = some (.addImm 1 2 (-1)) := by decide
theorem witness_OnlyNotAndXorShareAWord :
    (and3.andOpcode = .sourceTable ∧ and3.gkLayouts = .on ∧ Instr.wellFormed and3 (.andImm 7 6 (-16)) = true ∧
      Instr.variant (.andImm 7 6 (-16)) = .AND) ∧
    (Instr.wellFormed Config.default (.notReg 1 2) = true ∧ Instr.wellFormed Config.default (.xorImm 1 2 (-1)) = true ∧
      Instr.form (.notReg 1 2) ≠ Instr.form (.xorImm 1 2 (-1)) ∧
      encode Config.default (.notReg 1 2) = encode Config.default (.xorImm 1 2 (-1))) := by decide
theorem witness_EncodeIsInjectiveInAForm : Instr.wellFormed Config.default (.jsr (-256)) = true ∧
    Instr.form (.jsr (-256)) = Instr.form (.jsr (-256)) := by decide
theorem witness_FieldsPartitionTheWord : (⟨.dr, 11, 9⟩ : FieldPos) ∈ (row Config.default .ADD).fields := by decide
theorem witness_AddAnswersItsWord : inReg 7 ∧ inReg 0 ∧ inReg 7 ∧ (-16 ≤ (-16 : Int) ∧ (-16 : Int) ≤ 15) := by decide
theorem witness_AndAnswersItsWord : inReg 0 ∧ inReg 7 ∧ inReg 0 ∧ (-16 ≤ (15 : Int) ∧ (15 : Int) ≤ 15) := by decide
theorem witness_BrAnswersItsWord : (-256 ≤ (255 : Int) ∧ (255 : Int) ≤ 255) := by decide
theorem witness_BaseRegisterFormsAnswerTheirWord : inReg 7 := by decide
theorem witness_NotAnswersItsWord : inReg 0 ∧ inReg 7 := by decide
theorem witness_XorAnswersItsWord : inReg 7 ∧ inReg 7 ∧ inReg 7 ∧ (-16 ≤ (15 : Int) ∧ (15 : Int) ≤ 15) := by decide
theorem witness_ShfAnswersItsWord : inReg 7 ∧ inReg 0 ∧
    (State.reset.config.unsignedFields = .unsigned ∧ 0 ≤ (15 : Int) ∧ (15 : Int) ≤ 15) ∧
    (signedFields.unsignedFields = .signed ∧ -8 ≤ (-8 : Int) ∧ (-8 : Int) ≤ 7) := by decide
theorem witness_LeaAnswersItsWord : inReg 0 ∧ (-256 ≤ (-256 : Int) ∧ (-256 : Int) ≤ 255) := by decide
theorem witness_LoadsAndStoresAnswerTheirWord : inReg 7 ∧ inReg 7 ∧ (-32 ≤ (-32 : Int) ∧ (-32 : Int) ≤ 31) := by decide
theorem witness_JsrAnswersItsWord : (-1024 ≤ (-1024 : Int) ∧ (-1024 : Int) ≤ 1023) := by decide
theorem witness_TrapAndRtiAnswerTheirWord :
    (State.reset.config.unsignedFields = .unsigned ∧ 0 ≤ (255 : Int) ∧ (255 : Int) ≤ 255) ∧
    (signedFields.unsignedFields = .signed ∧ -128 ≤ (-128 : Int) ∧ (-128 : Int) ≤ 127) := by decide
theorem witness_RegisterFieldsAreRecovered : Instr.wellFormed State.reset.config (.stw 7 0 (-32)) = true ∧
    (⟨.sr, 11, 9⟩ : FieldPos) ∈ (row State.reset.config (Instr.form (.stw 7 0 (-32)))).fields ∧
    FieldName.sr ∈ [FieldName.dr, .sr, .sr1, .sr2, .base_r] := by decide
theorem witness_SignedFieldsAreRecovered : Instr.wellFormed State.reset.config (.jsr (-256)) = true ∧
    (⟨.pc_offset, 10, 0⟩ : FieldPos) ∈ (row State.reset.config (Instr.form (.jsr (-256)))).fields ∧
    FieldName.pc_offset ∈ [FieldName.imm5, .pc_offset, .offset6, .boffset6] := by decide
theorem witness_UnsignedFieldsAreRecovered : Instr.wellFormed State.reset.config (.trap 255) = true ∧
    (⟨.trapvect8, 7, 0⟩ : FieldPos) ∈ (row State.reset.config (Instr.form (.trap 255))).fields ∧
    State.reset.config.unsignedFields = .unsigned ∧ Instr.wellFormed signedFields (.lshf 0 0 (-8)) = true ∧
    (⟨.amount4, 3, 0⟩ : FieldPos) ∈ (row signedFields (Instr.form (.lshf 0 0 (-8)))).fields ∧
    signedFields.unsignedFields = .signed := by decide
theorem witness_ModeBitFollowsTheOperand : addRequest.tag = .admitted .ADD ∧ addRequest.sr2 = some 3 ∧
    served Config.default addRequest = some (.ok 0x1283#16) ∧
    served Config.default { tag := .admitted .XOR, dr := some 0, sr1 := some 0, imm5 := some (-16) } =
      some (.ok 0x9030#16) := by decide
theorem witness_ShiftKindBits : served Config.default
    { tag := .admitted .SHF, dr := some 0, sr := some 0, shift_type := some .RSHFA, amount4 := some 0 } =
    some (.ok 0xD030#16) := by decide
theorem witness_JsrOffsetReadsTheSameBothWays : Config.default.gkLayouts = .on ∧ Config.default.jsrRange = .nine ∧
    jsr11.gkLayouts = .on ∧ jsr11.jsrRange = .eleven ∧ (255 : Int) < 256 ∧ (1023 : Int) < 1024 := by decide
theorem witness_ConstructionFollowsTheViolations : built Config.default addRequest = some (.addReg 1 2 3) ∧
    violations Config.default badRequest = [⟨.RegisterOutOfRange, [.dr], some (.int 8)⟩] ∧
    violations gkOff { tag := .admitted .RTI } = [⟨.UnknownVariant, [], some (.tag (.admitted .RTI))⟩] := by decide
theorem witness_DefaultConstructionIsTheAlgorithm : Config.default.errorSelect = .specOrder := by decide
theorem witness_UnknownVariantIsRefused : (RawDescriptor.mk (.other 3) none none none none none none none none none none
      none none none none none).tag = .other 3 ∧
    gkOff.gkLayouts = .off ∧ VariantTag.TRAP ∈ [VariantTag.NOT, .XOR, .SHF, .LEA, .LDW, .STW, .LDB, .STB, .JSR, .JSRR, .TRAP,
      .RTI] := by decide
theorem witness_AdmittedTagsFollowGkLayouts : Instr.operandsInRange gkOff (.jmp 7) = true ∧
    Instr.variant (.jmp 7) ∈ [VariantTag.ADD, .AND, .BR, .JMP] ∧ Instr.operandsInRange gkOff (.trap 255) = true ∧
    Instr.variant (.trap 255) ∉ [VariantTag.ADD, .AND, .BR, .JMP] ∧ gkOff.gkLayouts = .off := by decide
theorem witness_OperandPairIsExclusive : VariantTag.XOR ∈ [VariantTag.ADD, .AND, .XOR] ∧
    tagAdmitted Config.default .XOR = true ∧
    ({ tag := .admitted .XOR, sr2 := some 0, imm5 := some 0 } : RawDescriptor).tag = .admitted .XOR ∧
    built Config.default addRequest = some (.addReg 1 2 3) := by decide
theorem witness_RegisterRangeIsChecked : Instr.wellFormed Config.default (.stb 0 7 0) = true ∧
    FieldName.base_r ∈ [FieldName.dr, .sr, .sr1, .sr2, .base_r] ∧ ((Instr.stb 0 7 0).toRaw.get .base_r).isSome ∧
    (7 : Int) < 8 := by decide
theorem witness_NumericRangeIsChecked : Instr.wellFormed Config.default (.jsr 255) = true ∧
    ((Instr.jsr 255).toRaw.get .pc_offset).isSome ∧
    statedRange Config.default (Instr.variant (.jsr 255)) .pc_offset = some (-256, 255) ∧
    statedRange jsr11 .JSR .pc_offset = some (-1024, 1023) ∧ (255 : Int) < 256 := by decide
theorem witness_FieldSetIsExact : Instr.wellFormed Config.default (.lshf 0 0 15) = true ∧
    Slot.single .shift_type ∈ slots (Instr.variant (.lshf 0 0 15)) ∧
    FieldName.n ∉ slotFields (Instr.variant (.lshf 0 0 15)) ∧
    ((Instr.lshf 0 0 15).toRaw.set .n (.bool false)).get .n = some (.bool false) := by decide
theorem witness_BrFlagsAreRequired : ((Instr.br true true true (-256)).toRaw.clear .z).tag = .admitted .BR ∧
    ((Instr.br true true true (-256)).toRaw.clear .z).get .z = none := by decide
theorem witness_ErrorRecordsFollowTheTable : served Config.default badRequest =
    some (.err ⟨.RegisterOutOfRange, [.dr], some (.int 8)⟩) := by decide
theorem witness_StepRunsTheConstructedInstruction : (waiting Config.default addRequest).requests = addRequest :: [] ∧
    built Config.default addRequest = some (.addReg 1 2 3) ∧ State.reset.requests = [] := by decide
theorem witness_StepRunsTheFetchedWord : read State.reset.config 0x8000#16 = some .rti := by decide
theorem witness_RefusalOnlyAnswersTheError : (waiting Config.default badRequest).requests = badRequest :: [] ∧
    built Config.default badRequest = none := by decide
theorem witness_ResponsesDoNotDependOnOrder : ([addRequest, badRequest] : List RawDescriptor).Perm [badRequest, addRequest] :=
  List.Perm.swap _ _ _
theorem witness_ResponseDependsOnTheRequestAlone :
    ({ State.reset with requests := [badRequest, addRequest] } : State).requests = [badRequest] ++ addRequest :: [] ∧
    (waiting Config.default addRequest).requests = [] ++ addRequest :: [] := by decide
theorem witness_EveryRequestGetsOneResponse : served Config.default addRequest = some (.ok 0x1283#16) := by decide
theorem witness_ExecFrame : exec (.addReg 1 2 3) State.reset = .next (State.reset.respond (.ok 0x1283#16)) := by rfl
theorem witness_StepKeepsTheInvariant : (waiting Config.default addRequest).inv = true ∧
    served Config.default addRequest = some (.ok 0x1283#16) := by decide
theorem witness_InvariantHoldsAtResetAndPresent : (waiting and3 badRequest).inv = true := by decide
theorem witness_ParametersNeverChange : ∃ t, Host.Core.run core 1 State.reset = .next t := ⟨State.reset, rfl⟩
theorem witness_LegalBusWidthsCarryEveryRequest : Config.wf { Config.default with inWidth := some 12 } = true ∧
    Instr.wellFormed { Config.default with inWidth := some 12 } (.jsr (-256)) = true ∧
    statedRange { Config.default with inWidth := some 12 } .JSR .pc_offset = some (-256, 255) := by decide
theorem witness_ImageBytesDecodeInEitherOrder : Instr.wellFormed Config.default (.br true true true (-1)) = true := by decide

end Sys2Proof.Tests
end

/-! # Bits, fields and the table of forms

SUPPORT. A field of a word as the bits it covers, and what each function of the model that packs or reads a field does to
those bits (R13, R15, R61 to R63). -/

namespace Sys2Proof

/-- The bits `[hi:lo]`, all set: `FieldPos.mask` without a field name. -/
def bitRange (hi lo : Nat) : Word16 := ((1#16 <<< (hi - lo + 1)) - 1#16) <<< lo

theorem FieldPos.mask_eq_bitRange (p : FieldPos) : p.mask = bitRange p.hi p.lo := rfl

theorem getLsbD_bitRange {hi lo : Nat} (k : Nat) (hhi : hi < 16) (hlo : lo ≤ hi) :
    (bitRange hi lo).getLsbD k = decide (lo ≤ k ∧ k ≤ hi) := by
  have ones : (1#16 <<< (hi - lo + 1)) - 1#16 = BitVec.ofNat 16 (2 ^ (hi - lo + 1) - 1) := by
    have hN : hi - lo + 1 ≤ 16 := by omega
    generalize hi - lo + 1 = N at hN
    interval_cases N <;> rfl
  rw [bitRange, ones, BitVec.getLsbD_shiftLeft, BitVec.getLsbD_ofNat, Nat.testBit_two_pow_sub_one, Bool.eq_iff_iff]
  simp only [Bool.and_eq_true, Bool.not_eq_true', decide_eq_true_eq, decide_eq_false_iff_not]
  omega

/-- The bits of a word that a field covers are the field, shifted back into its place (R13). -/
theorem and_bitRange (w : Word16) {hi lo : Nat} (hhi : hi < 16) (hlo : lo ≤ hi) :
    w &&& bitRange hi lo = BitVec.ofNat 16 (field w hi lo <<< lo) := by
  apply BitVec.eq_of_getLsbD_eq
  intro k hk
  rw [BitVec.getLsbD_and, getLsbD_bitRange k hhi hlo, BitVec.getLsbD_ofNat, Nat.testBit_shiftLeft, field,
    Nat.testBit_mod_two_pow, Nat.testBit_shiftRight, BitVec.testBit_toNat]
  by_cases h : lo ≤ k
  · simp [h, hk, show lo + (k - lo) = k by omega, show k ≤ hi ↔ k - lo < hi - lo + 1 by omega, Bool.and_comm]
  · simp [h]

/-- A known field fixes the bits it covers. -/
theorem and_bitRange_of_field {w : Word16} {hi lo v : Nat} (h : field w hi lo = v) (hhi : hi < 16 := by decide)
    (hlo : lo ≤ hi := by decide) : w &&& bitRange hi lo = BitVec.ofNat 16 (v <<< lo) := by
  rw [and_bitRange w hhi hlo, h]

/-- What two masks fix of a word, their union fixes. -/
theorem and_or_eq {w m₁ m₂ v₁ v₂ : Word16} (h₁ : w &&& m₁ = v₁) (h₂ : w &&& m₂ = v₂) :
    w &&& (m₁ ||| m₂) = v₁ ||| v₂ := by
  rw [BitVec.and_or_distrib_left, h₁, h₂]

theorem field_bit_lt (w : Word16) (k : Nat) : field w k k < 2 := by
  simpa using field_lt w k k

theorem field_bit_eq_zero {w : Word16} {k : Nat} (h : field w k k ≠ 1) : field w k k = 0 := by
  have := field_bit_lt w k
  omega

theorem readBit_iff {w : Word16} {k : Nat} : readBit w k = true ↔ field w k k = 1 := by
  simp [readBit]

/-! ## Packing a field undoes reading it -/

/-- A narrower pattern is the low end of a wider one. -/
theorem mask_eq_mask_mod {N M : Nat} (h : N ≤ M) (v : Int) : mask N v = mask M v % 2 ^ N := by
  have hdvd : ((2 ^ N : Nat) : Int) ∣ ((2 ^ M : Nat) : Int) := by exact_mod_cast pow_dvd_pow 2 h
  unfold mask
  zify
  rw [Int.toNat_of_nonneg (Int.emod_nonneg _ (by positivity)), Int.toNat_of_nonneg (Int.emod_nonneg _ (by positivity))]
  exact (Int.emod_emod_of_dvd v (by exact_mod_cast hdvd)).symm

theorem mask_zext {N u : Nat} (h : u < 2 ^ N) : mask N (zext N u) = u := by
  have hu : (u : Int) % ((2 ^ N : Nat) : Int) = u := by exact_mod_cast Nat.mod_eq_of_lt h
  rw [mask, zext, hu, Int.toNat_natCast]

theorem mask_sext {N u : Nat} (h : u < 2 ^ N) : mask N (sext N u) = u := by
  have hmod : sext N u % ((2 ^ N : Nat) : Int) = zext N u % ((2 ^ N : Nat) : Int) := by
    unfold sext
    split
    · rfl
    · exact Int.sub_emod_right _ _
  rw [mask, hmod]
  exact mask_zext h

@[simp] theorem mask_readReg (w : Word16) (lo : Nat) : mask 3 (readReg w lo) = field w (lo + 2) lo :=
  mask_zext (by simpa [Nat.add_sub_cancel_left] using field_lt w (lo + 2) lo)

theorem mask_readSigned (w : Word16) {N : Nat} (hN : 0 < N) : mask N (readSigned w N) = field w (N - 1) 0 :=
  mask_sext (by simpa [Nat.sub_add_cancel hN] using field_lt w (N - 1) 0)

theorem mask_readUnsigned (c : Config) (w : Word16) {N : Nat} (hN : 0 < N) :
    mask N (readUnsigned c w N) = field w (N - 1) 0 := by
  have h : field w (N - 1) 0 < 2 ^ N := by simpa [Nat.sub_add_cancel hN] using field_lt w (N - 1) 0
  unfold readUnsigned
  split
  · exact mask_zext h
  · exact mask_sext h

@[simp] theorem mask_bit_readBit (w : Word16) (k : Nat) : mask 1 (bit (readBit w k) : Int) = field w k k := by
  have h := field_bit_lt w k
  have hbit : bit (readBit w k) = field w k k := by
    unfold bit readBit
    interval_cases field w k k <;> rfl
  rw [hbit]
  exact mask_zext h

/-! ## The table of forms -/

/-- R62 on words and R15 on numbers pack the same bits. -/
theorem FieldPos.bits_eq_place (p : FieldPos) (hhi : p.hi < 16) (hlo : p.lo ≤ p.hi) (v : Int) :
    p.bits v = BitVec.ofNat 16 (place v (p.hi - p.lo + 1) p.lo) := by
  apply BitVec.eq_of_getLsbD_eq
  intro k hk
  have hv (j : Nat) : (BitVec.ofInt 16 v).getLsbD j = (Sys2Proof.mask 16 v).testBit j := by
    rw [← BitVec.testBit_toNat, BitVec.toNat_ofInt, Sys2Proof.mask]
  rw [FieldPos.bits, BitVec.getLsbD_and, FieldPos.mask_eq_bitRange, getLsbD_bitRange k hhi hlo,
    BitVec.getLsbD_shiftLeft, hv, BitVec.getLsbD_ofNat, place, Nat.testBit_shiftLeft,
    mask_eq_mask_mod (show p.hi - p.lo + 1 ≤ 16 by omega), Nat.testBit_mod_two_pow]
  by_cases h : p.lo ≤ k
  · simp [h, hk, Nat.not_lt.2 h, show k ≤ p.hi ↔ k - p.lo < p.hi - p.lo + 1 by omega, Bool.and_comm]
  · simp [h]

theorem row_fields_within_word (c : Config) (f : Form) : ∀ p ∈ (row c f).fields, p.hi < 16 ∧ p.lo ≤ p.hi := by
  cases f <;> simp [row]

/-- The fixed bits and the fields of a row leave no bit of the word out (R63). -/
theorem row_mask_fields_cover (c : Config) (f : Form) :
    (row c f).fields.foldl (fun m p => m ||| p.mask) (row c f).mask = 0xFFFF#16 := by
  cases f <;> simp only [row, List.foldl, FieldPos.mask] <;> rfl

theorem encode_eq_foldl_place (c : Config) (i : Instr) :
    encode c i = (row c i.form).fields.foldl
      (fun w p => w ||| BitVec.ofNat 16 (place (i.operand p.name) (p.hi - p.lo + 1) p.lo)) (row c i.form).pattern :=
  List.foldl_ext _ _ _ fun _ p hp => by
    obtain ⟨hhi, hlo⟩ := row_fields_within_word c i.form p hp
    rw [p.bits_eq_place hhi hlo]

theorem ofNat_andOpcode (c : Config) : BitVec.ofNat 16 (c.andOpcode.bits <<< 12) = andBase c := by
  cases h : c.andOpcode <;> simp [andBase, h, AndOpcode.bits]

/-! # Encoding what the decoder reads

SUPPORT. The decoder picks a form whose fixed bits the word has (`readForm_ok`) and reads each field of its row
(`readAs`); encoding that descriptor puts every field back where it was read (`encode_readAs`). -/

/-- The descriptor of a form, each operand read from the field its row gives it (R64, R68, R69). -/
def readAs (c : Config) (w : Word16) : Form → Instr
  | .ADD => .addReg (readReg w 9) (readReg w 6) (readReg w 0)
  | .ADD_imm => .addImm (readReg w 9) (readReg w 6) (readSigned w 5)
  | .AND => .andReg (readReg w 9) (readReg w 6) (readReg w 0)
  | .AND_imm => .andImm (readReg w 9) (readReg w 6) (readSigned w 5)
  | .BR => .br (readBit w 11) (readBit w 10) (readBit w 9) (readSigned w 9)
  | .JMP => .jmp (readReg w 6)
  | .NOT => .notReg (readReg w 9) (readReg w 6)
  | .XOR => .xorReg (readReg w 9) (readReg w 6) (readReg w 0)
  | .XOR_imm => .xorImm (readReg w 9) (readReg w 6) (readSigned w 5)
  | .LSHF => .lshf (readReg w 9) (readReg w 6) (readUnsigned c w 4)
  | .RSHFL => .rshfl (readReg w 9) (readReg w 6) (readUnsigned c w 4)
  | .RSHFA => .rshfa (readReg w 9) (readReg w 6) (readUnsigned c w 4)
  | .LEA => .lea (readReg w 9) (readSigned w 9)
  | .LDW => readMem .ldw w
  | .STW => readMem .stw w
  | .LDB => readMem .ldb w
  | .STB => readMem .stb w
  | .JSR => .jsr (readSigned w 11)
  | .JSRR => .jsrr (readReg w 6)
  | .TRAP => .trap (readUnsigned c w 8)
  | .RTI => .rti

theorem readAs_form (c : Config) (w : Word16) (f : Form) : (readAs c w f).form = f := by
  cases f <;> rfl

theorem mask_operand_readAs (c : Config) (w : Word16) (f : Form) : ∀ p ∈ (row c f).fields,
    mask (p.hi - p.lo + 1) ((readAs c w f).operand p.name) = field w p.hi p.lo := by
  cases f <;>
    simp [row, readAs, readMem, Instr.operand, Instr.toRaw, RawDescriptor.get, mask_readSigned, mask_readUnsigned]

theorem bits_operand_readAs (c : Config) (w : Word16) (f : Form) (p : FieldPos) (hp : p ∈ (row c f).fields) :
    p.bits ((readAs c w f).operand p.name) = w &&& p.mask := by
  obtain ⟨hhi, hlo⟩ := row_fields_within_word c f p hp
  rw [p.bits_eq_place hhi hlo, place, mask_operand_readAs c w f p hp, p.mask_eq_bitRange, and_bitRange w hhi hlo]

theorem foldl_or_and_mask {w : Word16} {bits : FieldPos → Word16} (ps : List FieldPos)
    (h : ∀ p ∈ ps, bits p = w &&& p.mask) (m : Word16) :
    ps.foldl (fun a p => a ||| bits p) (w &&& m) = w &&& ps.foldl (fun a p => a ||| p.mask) m := by
  induction ps generalizing m with
  | nil => rfl
  | cons p ps ih =>
    obtain ⟨hp, hps⟩ := List.forall_mem_cons.1 h
    rw [List.foldl_cons, List.foldl_cons, hp, ← BitVec.and_or_distrib_left, ih hps]

/-- The word has the fixed bits of a form (R61). -/
def HasFixedBits (c : Config) (w : Word16) (f : Form) : Prop := w &&& (row c f).mask = (row c f).pattern

theorem encode_readAs {c : Config} {w : Word16} {f : Form} (h : HasFixedBits c w f) : encode c (readAs c w f) = w := by
  rw [encode, readAs_form, ← h, foldl_or_and_mask _ (bits_operand_readAs c w f), row_mask_fields_cover]
  exact BitVec.and_allOnes

/-- The descriptor is the word read as one of the forms whose fixed bits the word has. -/
def ReadAsSomeForm (c : Config) (w : Word16) (i : Instr) : Prop := ∃ f, i = readAs c w f ∧ HasFixedBits c w f

theorem and_opcodeMask {w : Word16} {op : Nat} (hop : field w 15 12 = op) :
    w &&& 0xF000#16 = BitVec.ofNat 16 (op <<< 12) :=
  and_bitRange_of_field hop

/-- Formats RR and RI over any opcode (R71): the fixed bits of the form that is read. -/
theorem readOperate_ok {t : VariantTag} {reg imm : Int → Int → Int → Instr} {w : Word16} {i : Instr} {op : Nat}
    (hop : field w 15 12 = op) (h : readOperate t reg imm w = .ok i) :
    (w &&& 0xF020#16 = BitVec.ofNat 16 (op <<< 12) ||| 0x0020#16 ∧
      i = imm (readReg w 9) (readReg w 6) (readSigned w 5)) ∨
    (w &&& 0xF038#16 = BitVec.ofNat 16 (op <<< 12) ∧ i = reg (readReg w 9) (readReg w 6) (readReg w 0)) := by
  unfold readOperate at h
  split at h
  · next hmode => exact .inl ⟨and_or_eq (and_opcodeMask hop) (and_bitRange_of_field hmode), (Except.ok.inj h).symm⟩
  · next hmode =>
    have hmode : field w 5 5 = 0 := field_bit_eq_zero hmode
    split at h
    · next hzero =>
      have hfix := and_or_eq (and_opcodeMask hop) (and_or_eq (and_bitRange_of_field hmode) (and_bitRange_of_field hzero))
      exact .inr ⟨by simpa [bitRange] using hfix, (Except.ok.inj h).symm⟩
    · cases h

theorem readOperate_and_ok {c : Config} {w : Word16} {i : Instr} (hop : field w 15 12 = c.andOpcode.bits)
    (h : readOperate .AND .andReg .andImm w = .ok i) : ReadAsSomeForm c w i := by
  obtain ⟨hfix, rfl⟩ | ⟨hfix, rfl⟩ := readOperate_ok hop h <;> rw [ofNat_andOpcode] at hfix
  · exact ⟨.AND_imm, rfl, hfix⟩
  · exact ⟨.AND, rfl, hfix⟩

theorem readOpcode3_ok {c : Config} {w : Word16} {i : Instr} (hop : field w 15 12 = 0b0011)
    (h : readOpcode3 c w = .ok i) : ReadAsSomeForm c w i := by
  unfold readOpcode3 at h
  split at h
  · exact ⟨.STB, (Except.ok.inj h).symm, and_opcodeMask hop⟩
  · next hand =>
    split at h
    · next j hj => exact readOperate_and_ok (by rw [hop, hand]; rfl) (hj.trans h)
    · exact ⟨.STB, (Except.ok.inj h).symm, and_opcodeMask hop⟩

theorem readJsr_ok {c : Config} {w : Word16} {i : Instr} (hop : field w 15 12 = 0b0100) (h : readJsr w = .ok i) :
    ReadAsSomeForm c w i := by
  unfold readJsr at h
  split at h
  · next hbit =>
    have hfix := and_or_eq (and_opcodeMask hop) (and_bitRange_of_field (readBit_iff.1 hbit))
    exact ⟨.JSR, (Except.ok.inj h).symm, hfix⟩
  · next hbit =>
    have hbit : field w 11 11 = 0 := field_bit_eq_zero (mt readBit_iff.2 hbit)
    split at h
    · next hzero =>
      obtain ⟨hhigh, hlow⟩ := hzero
      have hfix := and_or_eq (and_or_eq (and_opcodeMask hop) (and_bitRange_of_field hbit))
        (and_or_eq (and_bitRange_of_field hhigh) (and_bitRange_of_field hlow))
      exact ⟨.JSRR, (Except.ok.inj h).symm, hfix⟩
    · cases h

theorem readXor_ok {c : Config} {w : Word16} {i : Instr} (hop : field w 15 12 = 0b1001) (h : readXor w = .ok i) :
    ReadAsSomeForm c w i := by
  unfold readXor at h
  split at h
  · next hones =>
    have hfix := and_or_eq (and_opcodeMask hop) (and_bitRange_of_field hones)
    exact ⟨.NOT, (Except.ok.inj h).symm, hfix⟩
  · obtain ⟨hfix, rfl⟩ | ⟨hfix, rfl⟩ := readOperate_ok hop h
    · exact ⟨.XOR_imm, rfl, hfix⟩
    · exact ⟨.XOR, rfl, hfix⟩

theorem readShf_ok {c : Config} {w : Word16} {i : Instr} (hop : field w 15 12 = 0b1101) (h : readShf c w = .ok i) :
    ReadAsSomeForm c w i := by
  have fix {kind : Nat} (hkind : field w 5 4 = kind) := and_or_eq (and_opcodeMask hop) (and_bitRange_of_field hkind)
  unfold readShf at h
  split at h
  · next hkind => exact ⟨.LSHF, (Except.ok.inj h).symm, fix hkind⟩
  · next hkind => exact ⟨.RSHFL, (Except.ok.inj h).symm, fix hkind⟩
  · next hkind => exact ⟨.RSHFA, (Except.ok.inj h).symm, fix hkind⟩
  · cases h

/-- The opcode map of R72, arm by arm. -/
theorem readForm_ok {c : Config} {w : Word16} {i : Instr} (h : readForm c w = .ok i) : ReadAsSomeForm c w i := by
  unfold readForm at h
  split at h
  · next hop => exact ⟨.BR, (Except.ok.inj h).symm, and_opcodeMask hop⟩
  · next hop =>
    obtain ⟨hfix, rfl⟩ | ⟨hfix, rfl⟩ := readOperate_ok hop h
    · exact ⟨.ADD_imm, rfl, hfix⟩
    · exact ⟨.ADD, rfl, hfix⟩
  · next hop => exact ⟨.LDB, (Except.ok.inj h).symm, and_opcodeMask hop⟩
  · next hop => exact readOpcode3_ok hop h
  · next hop => exact readJsr_ok hop h
  · next hop =>
    split at h
    · next hand => exact readOperate_and_ok (by rw [hop, hand]; rfl) h
    · cases h
  · next hop => exact ⟨.LDW, (Except.ok.inj h).symm, and_opcodeMask hop⟩
  · next hop => exact ⟨.STW, (Except.ok.inj h).symm, and_opcodeMask hop⟩
  · next hop =>
    split at h
    · next hzero =>
      have hfix := and_or_eq (and_opcodeMask hop) (and_bitRange_of_field hzero)
      exact ⟨.RTI, (Except.ok.inj h).symm, hfix⟩
    · cases h
  · next hop => exact readXor_ok hop h
  · next hop =>
    split at h
    · next hzero =>
      obtain ⟨hhigh, hlow⟩ := hzero
      have hfix := and_or_eq (and_opcodeMask hop)
        (and_or_eq (and_bitRange_of_field hhigh) (and_bitRange_of_field hlow))
      exact ⟨.JMP, (Except.ok.inj h).symm, hfix⟩
    · cases h
  · next hop => exact readShf_ok hop h
  · next hop => exact ⟨.LEA, (Except.ok.inj h).symm, and_opcodeMask hop⟩
  · next hop =>
    split at h
    · next hzero =>
      have hfix := and_or_eq (and_opcodeMask hop) (and_bitRange_of_field hzero)
      exact ⟨.TRAP, (Except.ok.inj h).symm, hfix⟩
    · cases h
  · cases h

theorem wellFormed_iff {c : Config} {i : Instr} :
    i.wellFormed c = true ↔ tagAdmitted c i.variant = true ∧ i.operandsInRange c = true :=
  Bool.and_eq_true_iff

theorem decode_ok_iff {c : Config} {w : Word16} {i : Instr} :
    decode c w = .ok i ↔ readForm c w = .ok i ∧ i.wellFormed c = true := by
  rw [wellFormed_iff]
  constructor
  · intro h
    unfold decode at h
    split at h
    · cases h
    · next hread =>
      split_ifs at h with hadm hrange
      cases h
      exact ⟨hread, hadm, hrange⟩
  · rintro ⟨hread, hadm, hrange⟩
    simp [decode, hread, hadm, hrange]

theorem encode_of_decode {c : Config} {w : Word16} {i : Instr} (h : decode c w = .ok i) : encode c i = w := by
  obtain ⟨f, rfl, hfix⟩ := readForm_ok (decode_ok_iff.1 h).1
  exact encode_readAs hfix

theorem wellFormed_of_decode {c : Config} {w : Word16} {i : Instr} (h : decode c w = .ok i) : i.wellFormed c = true :=
  (decode_ok_iff.1 h).2

theorem tableWord_toNat (w : Word16) : tableWord 16 w.toNat = some w := by
  simp [tableWord, Nat.mod_eq_of_lt w.isLt, w.isLt]

end Sys2Proof

/-! # The packing stage answers the table's word

SUPPORT. The pseudocode of each variant's rule combines what the row of its form combines (R63, R67). -/

namespace Sys2Proof.Machine

theorem place_bit (b : Bool) (k : Nat) : place (bit b) 1 k = bit b <<< k := by
  cases b <;> rfl

theorem operateWord_reg (base : Nat) (dr sr1 sr2 : Int) :
    operateWord base dr sr1 (.reg sr2) = base ||| place dr 3 9 ||| place sr1 3 6 ||| place sr2 3 0 := rfl

/-- The mode bit moved to the base pattern, where the row has it (R66). -/
theorem operateWord_imm (base : Nat) (dr sr1 imm5 : Int) :
    operateWord base dr sr1 (.imm imm5) = base ||| 0x20 ||| place dr 3 9 ||| place sr1 3 6 ||| place imm5 5 0 := by
  simp only [operateWord, show 1 <<< 5 = 0x20 from rfl]
  ac_rfl

/-- The bits of the shift kind moved to the base pattern, where the row has them (R124). -/
theorem shfWord_eq (dr sr : Int) (kind : ShiftType) (a : Int) :
    shfWord dr sr kind a = 0xD000 ||| shiftBits kind <<< 4 ||| place dr 3 9 ||| place sr 3 6 ||| place a 4 0 := by
  simp only [shfWord]
  ac_rfl

/-- Every form is answered with the word its row gives it (R208). -/
theorem exec_eq_respond_encode (i : Instr) (s : State) :
    exec i s = .next (s.respond (.ok (encode s.config i))) := by
  rw [encode_eq_foldl_place]
  cases i <;>
    simp [exec, execAddReg_eq, execAddImm_eq, execAndReg_eq, execAndImm_eq, execBr_eq, execJmp_eq, execNotReg_eq,
      execXorReg_eq, execXorImm_eq, execLshf_eq, execRshfl_eq, execRshfa_eq, execLea_eq, execLdw_eq, execStw_eq,
      execLdb_eq, execStb_eq, execJsr_eq, execJsrr_eq, execTrap_eq, execRti_eq, operateWord_reg, operateWord_imm,
      shfWord_eq, shiftBits, memWord, conditionMask, place_bit, ofNat_andOpcode, BitVec.ofNat_or, Instr.form, row,
      Instr.operand, Instr.toRaw, RawDescriptor.get]

/-! # Constructing the request of a descriptor

SUPPORT. The request `Instr.toRaw` presents violates nothing but, if its tag is not admitted, R202: its fields are those
of its slots (10_state.md R29), and they are in range exactly when `Instr.operandsInRange` says so. -/

@[simp] theorem toRaw_tag (i : Instr) : i.toRaw.tag = .admitted i.variant := by
  cases i <;> rfl

theorem requestCarriesItsSlots (i : Instr) : Laws.RequestCarriesItsSlots.Statement i := by
  cases i <;> exact ⟨rfl, rfl⟩

theorem unexpectedAt_eq_none {t : VariantTag} {r : RawDescriptor} {f : FieldName}
    (h : r.get f = none ∨ f ∈ slotFields t) : unexpectedAt t r f = none := by
  unfold unexpectedAt
  split
  · rfl
  · next hv => exact if_pos (h.resolve_left (by simp [hv]))

/-- A slot with exactly one of its fields present is filled (R203). -/
theorem presenceAt_eq_none {r : RawDescriptor} {sl : Slot}
    (h : (sl.fields.filter fun f => (r.get f).isSome).length = 1) : presenceAt r sl = none := by
  cases sl with
  | single f => cases hf : (r.get f).isSome <;> simp_all [presenceAt, Slot.fields]
  | pair a b => cases ha : (r.get a).isSome <;> cases hb : (r.get b).isSome <;> simp_all [presenceAt, Slot.fields]

theorem rangeAt_eq_none_iff {c : Config} {t : VariantTag} {r : RawDescriptor} {f : FieldName} :
    rangeAt c t r f = none ↔ ∀ v, r.get f = some (.int v) → inFieldRange c t v f = true := by
  unfold rangeAt
  split
  · next v hv =>
    simp only [hv, Option.some.injEq, Value.int.injEq, forall_eq']
    split_ifs with hin <;> simp [hin]
  all_goals next hv => simp [hv]

/-- R204 and R205 check on the request the ranges that R28 states of the descriptor. -/
theorem range_toRaw_eq_nil_iff (c : Config) (i : Instr) :
    (slotFields i.variant).filterMap (rangeAt c i.variant i.toRaw) = [] ↔ i.operandsInRange c = true := by
  simp only [List.filterMap_eq_nil_iff, rangeAt_eq_none_iff]
  cases i <;>
    simp [Instr.variant, slotFields, slots, Slot.fields, Instr.toRaw, RawDescriptor.get, inFieldRange,
      Instr.operandsInRange, and_assoc]

theorem violations_toRaw {c : Config} {i : Instr} (h : i.wellFormed c = true) : violations c i.toRaw = [] := by
  obtain ⟨hadm, hrange⟩ := wellFormed_iff.1 h
  obtain ⟨hslots, hfields⟩ := requestCarriesItsSlots i
  have unexpected : fieldOrder.filterMap (unexpectedAt i.variant i.toRaw) = [] :=
    List.filterMap_eq_nil_iff.2 fun f hf => unexpectedAt_eq_none (by simpa using List.all_eq_true.1 hfields f hf)
  have presence : (slots i.variant).filterMap (presenceAt i.toRaw) = [] :=
    List.filterMap_eq_nil_iff.2 fun sl hsl => presenceAt_eq_none (by simpa using List.all_eq_true.1 hslots sl hsl)
  rw [violations_of_admitted (toRaw_tag i) hadm, unexpected, presence, (range_toRaw_eq_nil_iff c i).2 hrange]
  rfl

theorem buildRequest_toRaw (i : Instr) : buildRequest i.toRaw = .ok i := by
  cases i <;> rfl

/-- Constructing the request of a validated descriptor gives the descriptor back. -/
theorem construct_toRaw {c : Config} {i : Instr} (h : i.wellFormed c = true) : construct c i.toRaw = .ok i := by
  rw [construct_of_no_violation (violations_toRaw h), buildRequest_toRaw]

theorem construct_of_not_admitted {c : Config} {r : RawDescriptor} {t : VariantTag} (ht : r.tag = .admitted t)
    (ha : tagAdmitted c t = false) : construct c r = .error (unknownVariant r.tag) := by
  rw [construct_of_violation (violations_of_not_admitted ht ha), selectViolation_single, ht]

theorem tagAdmitted_iff (c : Config) (t : VariantTag) :
    tagAdmitted c t = true ↔ t ∈ [VariantTag.ADD, .AND, .BR, .JMP] ∨ c.gkLayouts = .on := by
  cases t <;> simp [tagAdmitted]

/-! # One step, and a run over the waiting requests

SUPPORT. One equation of `step` per case, and the induction over the queue. -/

theorem step_of_no_request {s : State} (hr : s.requests = []) : step s = .next s := by
  simp [step, hr]

theorem step_of_construct_ok {s : State} {r : RawDescriptor} {rest : List RawDescriptor} {i : Instr}
    (hr : s.requests = r :: rest) (hi : construct s.config r = .ok i) :
    step s = exec i { s with requests := rest } := by
  simp [step, hr, hi]

theorem step_of_construct_error {s : State} {r : RawDescriptor} {rest : List RawDescriptor} {e : InvalidOperand}
    (hr : s.requests = r :: rest) (he : construct s.config r = .error e) :
    step s = .next (({ s with requests := rest } : State).respond (.err e)) := by
  simp [step, hr, he]

/-- One step takes the next request and answers what `run` gives it (R19, R201). -/
theorem step_of_request {s : State} {r : RawDescriptor} {rest : List RawDescriptor} (hr : s.requests = r :: rest) :
    step s = .next (({ s with requests := rest } : State).respond (.ofResult (run s.config r))) := by
  cases h : construct s.config r with
  | ok i => simp [step_of_construct_ok hr h, exec_eq_respond_encode, run, h, Response.ofResult]
  | error e => simp [step_of_construct_error hr h, run, h, Response.ofResult]

theorem run_succ_of_step {M : Host.Core} {s t : M.State} (h : M.step s = .next t) (k : Nat) :
    M.run (k + 1) s = M.run k t := by
  simp [Host.Core.run, h]

/-- The state after the queue `rs` is served: no request waits, and `run` of each has been answered, in order. -/
def State.afterServing (s : State) (rs : List RawDescriptor) : State :=
  { s with
    requests := []
    responses := s.responses ++ rs.map fun r => Response.ofResult (run s.config r) }

theorem run_queue {rs : List RawDescriptor} {s : State} (hs : s.requests = rs) :
    Host.Core.run core rs.length s = .next (s.afterServing rs) := by
  induction rs generalizing s with
  | nil =>
    have hdone : s.afterServing [] = s := by rw [State.afterServing, List.map_nil, List.append_nil, ← hs]
    rw [hdone]
    rfl
  | cons r rest ih =>
    calc Host.Core.run core (rest.length + 1) s
        = Host.Core.run core rest.length
            (({ s with requests := rest } : State).respond (.ofResult (run s.config r))) :=
          run_succ_of_step (M := core) (step_of_request hs) _
      _ = .next (s.afterServing (r :: rest)) := by
          rw [ih rfl]
          simp [State.afterServing]

theorem withFetchWord_of_decode {s : State} {w : Word16} {i : Instr} (h : decode s.config w = .ok i) :
    s.withFetchWord 16 w.toNat = { s with requests := i.toRaw :: s.requests } := by
  simp [State.withFetchWord, tableWord_toNat, h]

/-! # Scope (00_scope.md): the obligations -/

/-- Settles O41, by induction on the requests that wait. -/
theorem servingTheQueueIsRun : Obligations.ServingTheQueueIsRun :=
  fun _ => run_queue rfl

/-- Settles O31: the operands are in range, so the tag's admission alone decides. -/
theorem admittedTagsFollowGkLayouts : Obligations.AdmittedTagsFollowGkLayouts := by
  intro c i hrange
  have constructs (h : tagAdmitted c i.variant = true) : construct c i.toRaw = .ok i :=
    construct_toRaw (wellFormed_iff.2 ⟨h, hrange⟩)
  refine ⟨fun hcore => constructs ((tagAdmitted_iff c _).2 (.inl hcore)),
    fun hext => ⟨fun hon => constructs ((tagAdmitted_iff c _).2 (.inr hon)), fun hoff => ?_⟩⟩
  have hno : tagAdmitted c i.variant = false := by
    rw [Bool.eq_false_iff, Ne, tagAdmitted_iff, hoff]
    exact not_or_intro hext (by decide)
  exact construct_of_not_admitted (toRaw_tag i) hno

/-- Settles O39: the fetched word presents the request of `i`, which constructs back to `i`, and the word of `i` is the
fetched one. -/
theorem stepRunsTheFetchedWord : Obligations.StepRunsTheFetchedWord := by
  intro s w i h
  have hstep : step (s.withFetchWord 16 w.toNat) = exec i s := by
    rw [withFetchWord_of_decode h]
    exact step_of_construct_ok rfl (construct_toRaw (wellFormed_of_decode h))
  exact ⟨hstep, by rw [hstep, exec_eq_respond_encode, encode_of_decode h]⟩

/-- Settles O38: the two equations of `step` for a request that constructs and for none. -/
theorem stepRunsTheConstructedInstruction : Obligations.StepRunsTheConstructedInstruction :=
  ⟨fun _ _ _ _ => step_of_construct_ok, fun _ => step_of_no_request⟩

end Sys2Proof.Machine

/-! # The fixed fields of an encoded word

SUPPORT. A field of a combined word is the combination of the fields (R63), so a field that no operand of its
row overlaps is that of the row's base pattern (R74); from there, the word of a validated descriptor is producible (R75). -/

namespace Sys2Proof

theorem field_or (w v : Word16) (hi lo : Nat) : field (w ||| v) hi lo = field w hi lo ||| field v hi lo := by
  rw [field, BitVec.toNat_or, Nat.shiftRight_or_distrib, Nat.or_mod_two_pow, field, field]

/-- A packed operand leaves the bits beside it clear. -/
theorem field_bits_of_disjoint {p : FieldPos} {hi lo : Nat} (hp : p.hi < 16 ∧ p.lo ≤ p.hi) (hlo : lo ≤ hi)
    (hdisj : p.hi < lo ∨ hi < p.lo) (v : Int) : field (p.bits v) hi lo = 0 := by
  apply Nat.eq_of_testBit_eq
  intro k
  obtain ⟨hhi, hle⟩ := hp
  have hout : ¬ (k < hi - lo + 1 ∧ p.lo ≤ lo + k ∧ lo + k ≤ p.hi) := by omega
  rw [field, Nat.testBit_mod_two_pow, Nat.testBit_shiftRight, BitVec.testBit_toNat, FieldPos.bits, BitVec.getLsbD_and,
    FieldPos.mask_eq_bitRange, getLsbD_bitRange _ hhi hle, Nat.zero_testBit, Bool.eq_false_iff]
  simp only [ne_eq, Bool.and_eq_true, decide_eq_true_eq]
  tauto

theorem field_foldl_bits_of_disjoint {hi lo : Nat} {operand : FieldName → Int} (hlo : lo ≤ hi) (ps : List FieldPos)
    (hps : ∀ p ∈ ps, p.hi < 16 ∧ p.lo ≤ p.hi) (hdisj : ∀ p ∈ ps, p.hi < lo ∨ hi < p.lo) (w : Word16) :
    field (ps.foldl (fun w p => w ||| p.bits (operand p.name)) w) hi lo = field w hi lo := by
  induction ps generalizing w with
  | nil => rfl
  | cons p ps ih =>
    obtain ⟨hp, hps⟩ := List.forall_mem_cons.1 hps
    obtain ⟨hpd, hdisj⟩ := List.forall_mem_cons.1 hdisj
    rw [List.foldl_cons, ih hps hdisj, field_or, field_bits_of_disjoint hp hlo hpd, Nat.or_zero]

/-- Bits that no operand of the row covers are the base pattern's (R74). -/
theorem field_encode_of_fixed {c : Config} {i : Instr} {hi lo v : Nat}
    (h : (∀ p ∈ (row c i.form).fields, p.hi < lo ∨ hi < p.lo) ∧ field (row c i.form).pattern hi lo = v)
    (hlo : lo ≤ hi := by decide) : field (encode c i) hi lo = v := by
  obtain ⟨hdisj, rfl⟩ := h
  exact field_foldl_bits_of_disjoint hlo _ (row_fields_within_word c i.form) hdisj _

/-- The opcode of each form (R72), AND's as the parameter has it (R73). -/
def Form.opcode (c : Config) : Form → Nat
  | .ADD | .ADD_imm => 0b0001
  | .AND | .AND_imm => c.andOpcode.bits
  | .BR => 0b0000
  | .JMP => 0b1100
  | .NOT | .XOR | .XOR_imm => 0b1001
  | .LSHF | .RSHFL | .RSHFA => 0b1101
  | .LEA => 0b1110
  | .LDW => 0b0110
  | .STW => 0b0111
  | .LDB => 0b0010
  | .STB => 0b0011
  | .JSR | .JSRR => 0b0100
  | .TRAP => 0b1111
  | .RTI => 0b1000

theorem field_encode_opcode (c : Config) (i : Instr) : field (encode c i) 15 12 = i.form.opcode c := by
  refine field_encode_of_fixed ?_
  cases i <;> cases hand : c.andOpcode <;>
    simp [Instr.form, row, Form.opcode, andBase, hand, AndOpcode.bits, field]

/-- Bits [5:4] hold the shift kind. -/
theorem field_encode_shfForm (c : Config) (dr sr : Int) (kind : ShiftType) (a : Int) :
    field (encode c (Machine.shfForm dr sr kind a)) 5 4 = Machine.shiftBits kind := by
  cases kind <;> exact field_encode_of_fixed (by simp [Machine.shfForm, Machine.shiftBits, Instr.form, row, field])

/-- No shift kind has the pattern 0b10 (R124). -/
theorem field_encode_shfForm_ne (c : Config) (dr sr : Int) (kind : ShiftType) (a : Int) :
    field (encode c (Machine.shfForm dr sr kind a)) 5 4 ≠ 2 := by
  rw [field_encode_shfForm]
  cases kind <;> decide

theorem encode_jsr (c : Config) (off : Int) : encode c (.jsr off) = 0x4800#16 ||| BitVec.ofNat 16 (mask 11 off) := by
  simp [encode_eq_foldl_place, Instr.form, row, Instr.operand, Instr.toRaw, RawDescriptor.get, place]

/-- With the 9-bit range, bits [10:8] of a JSR word are copies of the offset's sign (R161). -/
theorem field_encode_jsr_sign {c : Config} {off : Int} (h : inS c.jsrRange.bits off) :
    c.jsrRange = .eleven ∨ field (encode c (.jsr off)) 10 8 = 0 ∨ field (encode c (.jsr off)) 10 8 = 7 := by
  cases hrange : c.jsrRange with
  | eleven => exact .inl rfl
  | nine =>
    have hfield : field (encode c (.jsr off)) 10 8 = mask 11 off / 256 := by
      have hlt := mask_lt 11 off
      have hbase : field 0x4800#16 10 8 = 0 := rfl
      rw [encode_jsr, field_or, hbase, Nat.zero_or]
      simp only [field, BitVec.toNat_ofNat, Nat.shiftRight_eq_div_pow]
      omega
    have hmask : mask 11 off < 256 ∨ 1792 ≤ mask 11 off ∧ mask 11 off < 2048 := by
      simp only [hrange, JsrRange.bits, inS, mask] at h ⊢
      omega
    omega

theorem operateShape_encode_reg (c : Config) {i : Instr} (h : i.form = .ADD ∨ i.form = .AND ∨ i.form = .XOR) :
    operateShape (encode c i) = true := by
  have hzero : field (encode c i) 4 3 = 0 := by
    refine field_encode_of_fixed ?_
    rcases h with h | h | h <;> cases hand : c.andOpcode <;>
      simp [h, row, andBase, hand, AndOpcode.bits, field]
  simp [operateShape, hzero]

/-- NOT has the mode bit of XOR's immediate form (R121). -/
theorem operateShape_encode_imm (c : Config) {i : Instr}
    (h : i.form = .ADD_imm ∨ i.form = .AND_imm ∨ i.form = .XOR_imm ∨ i.form = .NOT) :
    operateShape (encode c i) = true := by
  have hmode : field (encode c i) 5 5 = 1 := by
    refine field_encode_of_fixed ?_
    rcases h with h | h | h | h <;> cases hand : c.andOpcode <;>
      simp [h, row, andBase, hand, AndOpcode.bits, field]
  simp [operateShape, hmode]

theorem operateShape_encode (c : Config) {i : Instr}
    (h : i.variant = .ADD ∨ i.variant = .AND ∨ i.variant = .NOT ∨ i.variant = .XOR) :
    operateShape (encode c i) = true := by
  cases i with
  | addReg | andReg | xorReg => exact operateShape_encode_reg c (by simp [Instr.form])
  | addImm | andImm | xorImm | notReg => exact operateShape_encode_imm c (by simp [Instr.form])
  | _ => simp [Instr.variant] at h

/-- The words of validated descriptors are among those R75 leaves, opcode by opcode (R72). -/
theorem producible_encode {c : Config} {i : Instr} (h : i.wellFormed c = true) : producible c (encode c i) = true := by
  obtain ⟨hgk, hrange⟩ := wellFormed_iff.1 h
  have hshape := operateShape_encode (i := i) c
  -- For the twelve variants of R12 `tagAdmitted` is the test of `GK_LAYOUTS` that `producible` makes.
  have gk_and {b : Bool} (hb : b = true) : (tagAdmitted c i.variant && b) = true := Bool.and_eq_true_iff.2 ⟨hgk, hb⟩
  rw [producible, field_encode_opcode]
  cases i with
  | addReg | addImm => exact hshape (by simp [Instr.variant])
  | andReg | andImm =>
    have hshape := hshape (by simp [Instr.variant])
    cases hand : c.andOpcode <;> simp [Instr.form, Form.opcode, AndOpcode.bits, hand, hshape]
  | br => rfl
  | lea | ldw | stw | ldb => exact hgk
  | stb => exact Bool.or_eq_true_iff.2 (.inl hgk)
  | notReg | xorReg | xorImm => exact gk_and (hshape (by simp [Instr.variant]))
  | lshf dr sr a => exact gk_and (bne_iff_ne.2 (field_encode_shfForm_ne c dr sr .LSHF a))
  | rshfl dr sr a => exact gk_and (bne_iff_ne.2 (field_encode_shfForm_ne c dr sr .RSHFL a))
  | rshfa dr sr a => exact gk_and (bne_iff_ne.2 (field_encode_shfForm_ne c dr sr .RSHFA a))
  | jmp b =>
    have hhigh : field (encode c (.jmp b)) 11 9 = 0 := field_encode_of_fixed (by simp [Instr.form, row, field])
    have hlow : field (encode c (.jmp b)) 5 0 = 0 := field_encode_of_fixed (by simp [Instr.form, row, field])
    exact Bool.and_eq_true_iff.2 ⟨beq_iff_eq.2 hhigh, beq_iff_eq.2 hlow⟩
  | jsr off =>
    have hbit : field (encode c (.jsr off)) 11 11 = 1 := field_encode_of_fixed (by simp [Instr.form, row, field])
    have hsign := field_encode_jsr_sign (of_decide_eq_true hrange)
    exact gk_and (by simpa [hbit, or_assoc] using hsign)
  | jsrr b =>
    have hbit : field (encode c (.jsrr b)) 11 11 = 0 := field_encode_of_fixed (by simp [Instr.form, row, field])
    have hhigh : field (encode c (.jsrr b)) 10 9 = 0 := field_encode_of_fixed (by simp [Instr.form, row, field])
    have hlow : field (encode c (.jsrr b)) 5 0 = 0 := field_encode_of_fixed (by simp [Instr.form, row, field])
    exact gk_and (by simp [hbit, hhigh, hlow])
  | trap v =>
    have hzero : field (encode c (.trap v)) 11 8 = 0 := field_encode_of_fixed (by simp [Instr.form, row, field])
    exact gk_and (beq_iff_eq.2 hzero)
  | rti =>
    have hzero : field (encode c .rti) 11 0 = 0 := field_encode_of_fixed (by simp [Instr.form, row, field])
    exact gk_and (beq_iff_eq.2 hzero)

end Sys2Proof

/-! # Construction inverts the request

SUPPORT. A request that violates nothing carries one field of each of its slots and no other field, so it is the request of
a descriptor (10_state.md R28, R29), and construction yields that one. -/

namespace Sys2Proof.Machine

theorem mem_fieldOrder (f : FieldName) : f ∈ fieldOrder := by cases f <;> decide

/-- A request is its tag and what it carries in each field (R200). -/
theorem rawDescriptor_ext {r q : RawDescriptor} (htag : r.tag = q.tag) (hget : ∀ f, r.get f = q.get f) : r = q := by
  have int {x y : Option Int} (h : x.map Value.int = y.map Value.int) : x = y :=
    Option.map_injective (fun _ _ => Value.int.inj) h
  have bool {x y : Option Bool} (h : x.map Value.bool = y.map Value.bool) : x = y :=
    Option.map_injective (fun _ _ => Value.bool.inj) h
  have shift {x y : Option ShiftType} (h : x.map Value.shift = y.map Value.shift) : x = y :=
    Option.map_injective (fun _ _ => Value.shift.inj) h
  cases r
  cases q
  exact (RawDescriptor.mk.injEq ..).mpr ⟨htag, int (hget .dr), int (hget .sr), int (hget .sr1), int (hget .sr2),
    int (hget .base_r), int (hget .imm5), bool (hget .n), bool (hget .z), bool (hget .p), int (hget .pc_offset),
    int (hget .offset6), int (hget .boffset6), int (hget .amount4), shift (hget .shift_type), int (hget .trapvect8)⟩

theorem get_eq_none_of_unexpectedAt {t : VariantTag} {r : RawDescriptor} {f : FieldName} (h : unexpectedAt t r f = none)
    (hf : f ∉ slotFields t) : r.get f = none := by
  unfold unexpectedAt at h
  split at h
  · next hget => exact hget
  · simp [hf] at h

theorem toRaw_get_eq_none {i : Instr} {f : FieldName} (hf : f ∉ slotFields i.variant) : i.toRaw.get f = none := by
  simpa [hf] using List.all_eq_true.1 (requestCarriesItsSlots i).2 f (mem_fieldOrder f)

theorem presenceAt_single_eq_none_iff {r : RawDescriptor} {f : FieldName} :
    presenceAt r (.single f) = none ↔ ∃ v, r.get f = some v := by
  simp [presenceAt, Option.isSome_iff_exists]

theorem presenceAt_pair_eq_none_iff {r : RawDescriptor} {a b : FieldName} :
    presenceAt r (.pair a b) = none ↔
      (∃ v, r.get a = some v) ∧ r.get b = none ∨ r.get a = none ∧ ∃ v, r.get b = some v := by
  cases ha : r.get a <;> cases hb : r.get b <;> simp [presenceAt, ha, hb]

/-- Filled slots hold the operands of a descriptor of their variant (R203): the fields that are present pick the form. -/
theorem exists_instr_of_slots_present {t : VariantTag} {r : RawDescriptor} (h : ∀ sl ∈ slots t, presenceAt r sl = none) :
    ∃ i : Instr, i.variant = t ∧ ∀ f ∈ slotFields t, r.get f = i.toRaw.get f := by
  cases t <;> simp [slots, presenceAt_single_eq_none_iff, presenceAt_pair_eq_none_iff, RawDescriptor.get,
    -Bool.exists_bool] at h
  case' ADD =>
    obtain ⟨⟨dr, hdr⟩, ⟨sr1, hsr1⟩, ⟨⟨sr2, hsr2⟩, himm5⟩ | ⟨hsr2, imm5, himm5⟩⟩ := h
  case' ADD.inl => refine ⟨.addReg dr sr1 sr2, rfl, ?_⟩
  case' ADD.inr => refine ⟨.addImm dr sr1 imm5, rfl, ?_⟩
  case' AND =>
    obtain ⟨⟨dr, hdr⟩, ⟨sr1, hsr1⟩, ⟨⟨sr2, hsr2⟩, himm5⟩ | ⟨hsr2, imm5, himm5⟩⟩ := h
  case' AND.inl => refine ⟨.andReg dr sr1 sr2, rfl, ?_⟩
  case' AND.inr => refine ⟨.andImm dr sr1 imm5, rfl, ?_⟩
  case' XOR =>
    obtain ⟨⟨dr, hdr⟩, ⟨sr1, hsr1⟩, ⟨⟨sr2, hsr2⟩, himm5⟩ | ⟨hsr2, imm5, himm5⟩⟩ := h
  case' XOR.inl => refine ⟨.xorReg dr sr1 sr2, rfl, ?_⟩
  case' XOR.inr => refine ⟨.xorImm dr sr1 imm5, rfl, ?_⟩
  case' BR =>
    obtain ⟨⟨n, hn⟩, ⟨z, hz⟩, ⟨p, hp⟩, off, hoff⟩ := h
    refine ⟨.br n z p off, rfl, ?_⟩
  case' JMP =>
    obtain ⟨b, hb⟩ := h
    refine ⟨.jmp b, rfl, ?_⟩
  case' NOT =>
    obtain ⟨⟨dr, hdr⟩, sr, hsr⟩ := h
    refine ⟨.notReg dr sr, rfl, ?_⟩
  case' SHF =>
    obtain ⟨⟨dr, hdr⟩, ⟨sr, hsr⟩, ⟨kind, hkind⟩, a, ha⟩ := h
    refine ⟨shfForm dr sr kind a, by cases kind <;> rfl, ?_⟩
    cases kind
  case' LEA =>
    obtain ⟨⟨dr, hdr⟩, off, hoff⟩ := h
    refine ⟨.lea dr off, rfl, ?_⟩
  case' LDW =>
    obtain ⟨⟨dr, hdr⟩, ⟨b, hb⟩, off, hoff⟩ := h
    refine ⟨.ldw dr b off, rfl, ?_⟩
  case' STW =>
    obtain ⟨⟨sr, hsr⟩, ⟨b, hb⟩, off, hoff⟩ := h
    refine ⟨.stw sr b off, rfl, ?_⟩
  case' LDB =>
    obtain ⟨⟨dr, hdr⟩, ⟨b, hb⟩, off, hoff⟩ := h
    refine ⟨.ldb dr b off, rfl, ?_⟩
  case' STB =>
    obtain ⟨⟨sr, hsr⟩, ⟨b, hb⟩, off, hoff⟩ := h
    refine ⟨.stb sr b off, rfl, ?_⟩
  case' JSR =>
    obtain ⟨off, hoff⟩ := h
    refine ⟨.jsr off, rfl, ?_⟩
  case' JSRR =>
    obtain ⟨b, hb⟩ := h
    refine ⟨.jsrr b, rfl, ?_⟩
  case' TRAP =>
    obtain ⟨v, hv⟩ := h
    refine ⟨.trap v, rfl, ?_⟩
  case' RTI => refine ⟨.rti, rfl, ?_⟩
  all_goals simp [slotFields, slots, Slot.fields, RawDescriptor.get, Instr.toRaw, shfForm, *]

/-- Exactly the requests of validated descriptors violate nothing (R207). -/
theorem violations_eq_nil_iff {c : Config} {r : RawDescriptor} :
    violations c r = [] ↔ ∃ i : Instr, i.wellFormed c = true ∧ r = i.toRaw := by
  constructor
  · intro h
    cases htag : r.tag with
    | other k => rw [violations_of_other htag] at h; cases h
    | admitted t =>
      cases hadm : tagAdmitted c t with
      | false => rw [violations_of_not_admitted htag hadm] at h; cases h
      | true =>
        rw [violations_of_admitted htag hadm, List.append_eq_nil_iff, List.append_eq_nil_iff,
          List.filterMap_eq_nil_iff, List.filterMap_eq_nil_iff] at h
        obtain ⟨⟨hunexpected, hpresence⟩, hrange⟩ := h
        obtain ⟨i, rfl, hslots⟩ := exists_instr_of_slots_present hpresence
        have hr : r = i.toRaw := by
          refine rawDescriptor_ext (htag.trans (toRaw_tag i).symm) fun f => ?_
          by_cases hf : f ∈ slotFields i.variant
          · exact hslots f hf
          · rw [get_eq_none_of_unexpectedAt (hunexpected f (mem_fieldOrder f)) hf, toRaw_get_eq_none hf]
        subst hr
        exact ⟨i, wellFormed_iff.2 ⟨hadm, (range_toRaw_eq_nil_iff c i).1 hrange⟩, rfl⟩
  · rintro ⟨i, hwf, rfl⟩
    exact violations_toRaw hwf

/-- What construction refuses, it refuses with one of the violations that apply (R207). -/
theorem mem_violations_of_construct_error {c : Config} {r : RawDescriptor} {e : InvalidOperand}
    (h : construct c r = .error e) : e ∈ violations c r := by
  cases hv : violations c r with
  | nil =>
    obtain ⟨i, hwf, rfl⟩ := violations_eq_nil_iff.1 hv
    rw [construct_toRaw hwf] at h
    cases h
  | cons e' es =>
    rw [construct_of_violation hv] at h
    cases h
    exact selectViolation_mem c e' es

theorem construct_ok_iff {c : Config} {r : RawDescriptor} {i : Instr} :
    construct c r = .ok i ↔ i.wellFormed c = true ∧ r = i.toRaw := by
  constructor
  · intro h
    cases hv : violations c r with
    | nil =>
      obtain ⟨j, hwf, rfl⟩ := violations_eq_nil_iff.1 hv
      rw [construct_toRaw hwf] at h
      cases h
      exact ⟨hwf, rfl⟩
    | cons e es =>
      rw [construct_of_violation hv] at h
      cases h
  · rintro ⟨hwf, rfl⟩
    exact construct_toRaw hwf

/-- Settles O28: a request that violates nothing is some descriptor's own, and it constructs to that one. -/
theorem constructionInvertsTheRequest : Obligations.ConstructionInvertsTheRequest :=
  fun _ _ _ => construct_ok_iff

end Sys2Proof.Machine

/-! # The shape of an error record

SUPPORT. Each violation has the fields and the value R211's table gives its kind. -/

namespace Sys2Proof.Machine

theorem shapeOk_of_unexpectedAt {t : VariantTag} {r : RawDescriptor} {f : FieldName} {e : InvalidOperand}
    (h : unexpectedAt t r f = some e) : e.shapeOk = true := by
  unfold unexpectedAt at h
  split at h
  · cases h
  · split_ifs at h
    cases h
    rfl

/-- The one pair of fields is that of ADD, AND and XOR (R203). -/
theorem pair_mem_slots {t : VariantTag} {a b : FieldName} (h : .pair a b ∈ slots t) : a = .sr2 ∧ b = .imm5 := by
  cases t <;> simp [slots] at h <;> exact h

theorem shapeOk_of_presenceAt {t : VariantTag} {r : RawDescriptor} {sl : Slot} {e : InvalidOperand} (hsl : sl ∈ slots t)
    (h : presenceAt r sl = some e) : e.shapeOk = true := by
  cases sl with
  | single f =>
    rw [presenceAt] at h
    split_ifs at h
    cases h
    rfl
  | pair a b =>
    obtain ⟨rfl, rfl⟩ := pair_mem_slots hsl
    rw [presenceAt] at h
    split at h <;> cases h <;> rfl

theorem inFieldRange_of_isRegister {c : Config} {t : VariantTag} {v : Int} {f : FieldName} (hf : f.isRegister = true) :
    inFieldRange c t v f = decide (inReg v) := by
  cases f with
  | dr | sr | sr1 | sr2 | base_r => rfl
  | _ => cases hf

/-- Only numeric and register fields have a range (R204, R205). -/
theorem isNumeric_of_out_of_range {c : Config} {t : VariantTag} {v : Int} {f : FieldName}
    (hrange : inFieldRange c t v f = false) (hf : f.isRegister = false) : f.isNumeric = true := by
  cases f with
  | dr | sr | sr1 | sr2 | base_r => cases hf
  | n | z | p | shift_type => simp [inFieldRange] at hrange
  | imm5 | pc_offset | offset6 | boffset6 | amount4 | trapvect8 => rfl

theorem shapeOk_of_rangeAt {c : Config} {t : VariantTag} {r : RawDescriptor} {f : FieldName} {e : InvalidOperand}
    (h : rangeAt c t r f = some e) : e.shapeOk = true := by
  unfold rangeAt at h
  split at h
  · split_ifs at h with hrange hreg <;> cases h <;> rw [Bool.not_eq_true] at hrange
    · rw [inFieldRange_of_isRegister hreg] at hrange
      simp [InvalidOperand.shapeOk, hreg, -decide_eq_false_iff_not, hrange]
    · exact isNumeric_of_out_of_range hrange (Bool.eq_false_iff.2 hreg)
  all_goals cases h

theorem shapeOk_of_mem_violations {c : Config} {r : RawDescriptor} {e : InvalidOperand} (h : e ∈ violations c r) :
    e.shapeOk = true := by
  cases htag : r.tag with
  | other k =>
    rw [violations_of_other htag, List.mem_singleton] at h
    subst h
    rfl
  | admitted t =>
    cases hadm : tagAdmitted c t with
    | false =>
      rw [violations_of_not_admitted htag hadm, List.mem_singleton] at h
      subst h
      rfl
    | true =>
      rw [violations_of_admitted htag hadm, List.mem_append, List.mem_append, List.mem_filterMap, List.mem_filterMap,
        List.mem_filterMap] at h
      obtain (⟨f, -, hf⟩ | ⟨sl, hsl, hf⟩) | ⟨f, -, hf⟩ := h
      · exact shapeOk_of_unexpectedAt hf
      · exact shapeOk_of_presenceAt hsl hf
      · exact shapeOk_of_rangeAt hf

/-! # What every step keeps

SUPPORT. The frame of a step, the invariant it keeps, and a run over the first requests that wait. -/

/-- Every response of the block is legal: an admitted request's word is producible, and a refusal's record has the shape of
its kind. -/
theorem legal_ofResult_run (c : Config) (r : RawDescriptor) : (Response.ofResult (run c r)).legal c = true := by
  cases h : construct c r with
  | ok i =>
    rw [run, h]
    exact producible_encode (construct_ok_iff.1 h).1
  | error e =>
    rw [run, h]
    exact shapeOk_of_mem_violations (mem_violations_of_construct_error h)

theorem inv_iff {s : State} : s.inv = true ↔ s.config.wf = true ∧ (∀ r ∈ s.requests, r.fits s.config = true) ∧
    ∀ x ∈ s.responses, x.legal s.config = true := by
  simp [State.inv, and_assoc]

/-- Settles O46: the step takes a request off the port and adds the response `run` gives it, which is legal. -/
theorem stepKeepsTheInvariant : Obligations.StepKeepsTheInvariant := by
  intro s t hinv hstep
  cases hr : s.requests with
  | nil =>
    rw [step_of_no_request hr] at hstep
    cases hstep
    exact hinv
  | cons r rest =>
    rw [step_of_request hr] at hstep
    cases hstep
    obtain ⟨hwf, hfits, hlegal⟩ := inv_iff.1 hinv
    rw [hr] at hfits
    refine inv_iff.2 ⟨hwf, fun q hq => hfits q (List.mem_cons_of_mem r hq), fun x hx => ?_⟩
    obtain hx | hx := List.mem_append.1 hx
    · exact hlegal x hx
    · rw [List.mem_singleton.1 hx]
      exact legal_ofResult_run s.config r

/-- The state after the first requests `done` are served and `rest` still wait. -/
def State.afterServingFirst (s : State) (done rest : List RawDescriptor) : State :=
  { s with
    requests := rest
    responses := s.responses ++ done.map fun r => Response.ofResult (run s.config r) }

theorem run_first_requests {done rest : List RawDescriptor} {s : State} (hs : s.requests = done ++ rest) :
    Host.Core.run core done.length s = .next (s.afterServingFirst done rest) := by
  induction done generalizing s with
  | nil =>
    have hnone : s.afterServingFirst [] rest = s := by
      rw [State.afterServingFirst, List.map_nil, List.append_nil, ← List.nil_append rest, ← hs]
    rw [hnone]
    rfl
  | cons r done ih =>
    calc Host.Core.run core (done.length + 1) s
        = Host.Core.run core done.length
            (({ s with requests := done ++ rest } : State).respond (.ofResult (run s.config r))) :=
          run_succ_of_step (M := core) (step_of_request hs) _
      _ = .next (s.afterServingFirst (r :: done) rest) := by
          rw [ih rfl]
          simp [State.afterServingFirst]

/-- Serving up to and including a request succeeds, and its response, `run`'s, is the last one given. -/
theorem run_up_to_request {s : State} {r : RawDescriptor} {before after : List RawDescriptor}
    (hs : s.requests = before ++ r :: after) : ∃ t : State, Host.Core.run core (before.length + 1) s = .next t ∧
      t.responses.getLast? = some (.ofResult (run s.config r)) := by
  have hrun := run_first_requests (done := before ++ [r]) (rest := after) (s := s) (by simp [hs])
  rw [List.length_append, List.length_singleton] at hrun
  exact ⟨_, hrun, by simp [State.afterServingFirst]⟩

/-- Settles O43: in either state the last response is that of `run`, which reads the configuration and the request only. -/
theorem responseDependsOnTheRequestAlone : Obligations.ResponseDependsOnTheRequestAlone := by
  intro s t r before after before' after' hconfig hs ht
  obtain ⟨s', hs', hlast⟩ := run_up_to_request hs
  obtain ⟨t', ht', hlast'⟩ := run_up_to_request ht
  exact ⟨s', t', hs', ht', hlast, by rw [hlast', hlast, hconfig]⟩

/-- Settles O45: each form is answered with one word and nothing else. -/
theorem execFrame : Obligations.ExecFrame := by
  intro i s t h
  rw [exec_eq_respond_encode] at h
  cases h
  exact ⟨rfl, rfl, encode s.config i, rfl⟩

/-- A step always answers a next state, and with the same parameters (R25). -/
theorem exists_step_config (s : State) : ∃ t : State, step s = .next t ∧ t.config = s.config := by
  cases hr : s.requests with
  | nil => exact ⟨s, step_of_no_request hr, rfl⟩
  | cons r rest => exact ⟨_, step_of_request hr, rfl⟩

/-- Settles O48, by induction on the number of steps. -/
theorem parametersNeverChange : Obligations.ParametersNeverChange := by
  intro n
  induction n with
  | zero =>
    intro s t h
    cases h
    rfl
  | succ n ih =>
    intro s t h
    obtain ⟨u, hstep, hconfig⟩ := exists_step_config s
    rw [run_succ_of_step (M := core) hstep] at h
    exact (ih u t h).trans hconfig

end Sys2Proof.Machine

/-! # Requests in any order (20_memory.md)

SUPPORT. From no earlier response, the queue pairs each request with the response its own fields and the configuration give
it, so a permutation of the requests permutes the pairs. -/

namespace Sys2Proof.Machine

theorem State.afterServing_responses {s : State} (hs : s.responses = []) (rs : List RawDescriptor) :
    (s.afterServing rs).responses = rs.map fun r => Response.ofResult (run s.config r) := by
  rw [State.afterServing, hs, List.nil_append]

/-- Each request of the queue stands beside the response `run` gives it. -/
theorem zip_afterServing_responses {s : State} (hs : s.responses = []) (rs : List RawDescriptor) :
    rs.zip (s.afterServing rs).responses = rs.map fun r => (r, Response.ofResult (run s.config r)) := by
  rw [State.afterServing_responses hs, List.map_prod_left_eq_zip]

theorem length_afterServing_responses {s : State} (hs : s.responses = []) (rs : List RawDescriptor) :
    (s.afterServing rs).responses.length = rs.length := by
  rw [State.afterServing_responses hs, List.length_map]

/-- Settles O42: the pairs are the requests under one map, which a permutation commutes with; a request alone is a queue of
one. -/
theorem responsesDoNotDependOnOrder : Obligations.ResponsesDoNotDependOnOrder := by
  intro s t hconfig hs ht hperm
  refine ⟨s.afterServing s.requests, t.afterServing t.requests, run_queue rfl, run_queue rfl, ?_, ?_,
    length_afterServing_responses hs _, length_afterServing_responses ht _⟩
  · rw [zip_afterServing_responses hs, zip_afterServing_responses ht, ← hconfig]
    exact hperm.map _
  · intro p hp
    rw [zip_afterServing_responses hs] at hp
    obtain ⟨r, -, rfl⟩ := List.mem_map.1 hp
    exact ⟨_, run_queue (rs := [r]) rfl,
      State.afterServing_responses (s := { s with requests := [r] }) hs [r]⟩

end Sys2Proof.Machine

/-! # The rows partition the word

SUPPORT. The table of forms as masks (R63). What a combined word holds under the fixed bits and under each field follows
from the masks being disjoint. -/

namespace Sys2Proof

theorem row_pattern_and_mask (c : Config) (f : Form) : (row c f).pattern &&& (row c f).mask = (row c f).pattern := by
  cases hand : c.andOpcode <;> cases f <;> simp only [row, andBase, hand] <;> rfl

theorem row_pattern_and_not_mask (c : Config) (f : Form) : (row c f).pattern &&& ~~~(row c f).mask = 0#16 := by
  rw [← row_pattern_and_mask, BitVec.and_assoc, BitVec.and_not_self]
  exact BitVec.and_zero

theorem row_fields_disjoint (c : Config) (f : Form) :
    (row c f).fields.Pairwise (fun p q => p.mask &&& q.mask = 0#16) := by
  cases f <;> simp [row, FieldPos.mask]

theorem row_fields_disjoint_mask (c : Config) (f : Form) :
    ∀ p ∈ (row c f).fields, p.mask &&& (row c f).mask = 0#16 := by
  cases f <;> simp [row, FieldPos.mask]

theorem row_pattern_and_field {c : Config} {f : Form} {p : FieldPos} (hp : p ∈ (row c f).fields) :
    (row c f).pattern &&& p.mask = 0#16 := by
  rw [← row_pattern_and_mask, BitVec.and_assoc, BitVec.and_comm (row c f).mask, row_fields_disjoint_mask c f p hp,
    BitVec.and_zero]

/-! ## A packed operand and a combined word under a mask -/

theorem FieldPos.bits_and_mask (p : FieldPos) (v : Int) : p.bits v &&& p.mask = p.bits v := by
  rw [FieldPos.bits, BitVec.and_assoc, BitVec.and_self]

theorem FieldPos.bits_and_of_disjoint {p : FieldPos} {m : Word16} (h : p.mask &&& m = 0#16) (v : Int) :
    p.bits v &&& m = 0#16 := by
  rw [FieldPos.bits, BitVec.and_assoc, h, BitVec.and_zero]

theorem foldl_bits_and_of_disjoint {operand : FieldName → Int} {m : Word16} (ps : List FieldPos)
    (h : ∀ p ∈ ps, p.mask &&& m = 0#16) (w : Word16) :
    ps.foldl (fun w p => w ||| p.bits (operand p.name)) w &&& m = w &&& m := by
  induction ps generalizing w with
  | nil => rfl
  | cons p ps ih =>
    obtain ⟨hp, hps⟩ := List.forall_mem_cons.1 h
    rw [List.foldl_cons, ih hps, BitVec.and_or_distrib_right, FieldPos.bits_and_of_disjoint hp, BitVec.or_zero]

theorem foldl_bits_and_field {operand : FieldName → Int} {p : FieldPos} (ps : List FieldPos)
    (hps : ps.Pairwise fun p q => p.mask &&& q.mask = 0#16) (hp : p ∈ ps) (w : Word16) :
    ps.foldl (fun w p => w ||| p.bits (operand p.name)) w &&& p.mask = w &&& p.mask ||| p.bits (operand p.name) := by
  induction ps generalizing w with
  | nil => cases hp
  | cons q qs ih =>
    obtain ⟨hq, hqs⟩ := List.pairwise_cons.1 hps
    rw [List.foldl_cons]
    obtain rfl | hp := List.mem_cons.1 hp
    · have hrest : ∀ q ∈ qs, q.mask &&& p.mask = 0#16 := fun q hmem => by rw [BitVec.and_comm, hq q hmem]
      rw [foldl_bits_and_of_disjoint qs hrest, BitVec.and_or_distrib_right, p.bits_and_mask]
    · rw [ih hqs hp, BitVec.and_or_distrib_right, FieldPos.bits_and_of_disjoint (hq p hp), BitVec.or_zero]

/-- The word has the fixed bits of its form, whatever the operands (R74). -/
theorem encode_and_mask (c : Config) (i : Instr) : encode c i &&& (row c i.form).mask = (row c i.form).pattern := by
  rw [encode, foldl_bits_and_of_disjoint _ (row_fields_disjoint_mask c i.form), row_pattern_and_mask]

theorem encode_and_field {c : Config} {i : Instr} {p : FieldPos} (hp : p ∈ (row c i.form).fields) :
    encode c i &&& p.mask = p.bits (i.operand p.name) := by
  rw [encode, foldl_bits_and_field _ (row_fields_disjoint c i.form) hp, row_pattern_and_field hp, BitVec.zero_or]

theorem FieldPos.toNat_bits (p : FieldPos) (hhi : p.hi < 16) (hlo : p.lo ≤ p.hi) (v : Int) :
    (p.bits v).toNat = place v (p.hi - p.lo + 1) p.lo := by
  rw [p.bits_eq_place hhi hlo, BitVec.toNat_ofNat, Nat.mod_eq_of_lt (place_lt_word (by omega))]

theorem place_shiftRight (v : Int) (N p : Nat) : place v N p >>> p = mask N v :=
  Nat.shiftLeft_shiftRight ..

theorem FieldPos.field_bits (p : FieldPos) (hhi : p.hi < 16) (hlo : p.lo ≤ p.hi) (v : Int) :
    field (p.bits v) p.hi p.lo = Sys2Proof.mask (p.hi - p.lo + 1) v := by
  rw [field, p.toNat_bits hhi hlo, place_shiftRight, Nat.mod_eq_of_lt (mask_lt _ _)]

theorem field_and_bitRange (w : Word16) {hi lo : Nat} (hhi : hi < 16) (hlo : lo ≤ hi) :
    field (w &&& bitRange hi lo) hi lo = field w hi lo := by
  apply Nat.eq_of_testBit_eq
  intro k
  rw [field, field, Nat.testBit_mod_two_pow, Nat.testBit_mod_two_pow, Nat.testBit_shiftRight, Nat.testBit_shiftRight,
    BitVec.testBit_toNat, BitVec.testBit_toNat, BitVec.getLsbD_and, getLsbD_bitRange _ hhi hlo]
  by_cases hk : k < hi - lo + 1
  · simp [hk, show lo + k ≤ hi by omega]
  · simp [hk]

/-- Every field of an encoded word holds the pattern of its operand (R62). -/
theorem field_encode {c : Config} {i : Instr} {p : FieldPos} (hp : p ∈ (row c i.form).fields) :
    field (encode c i) p.hi p.lo = mask (p.hi - p.lo + 1) (i.operand p.name) := by
  obtain ⟨hhi, hlo⟩ := row_fields_within_word c i.form p hp
  rw [← field_and_bitRange _ hhi hlo, ← FieldPos.mask_eq_bitRange, encode_and_field hp, p.field_bits hhi hlo]

/-! ## The OR of the placed fields, and their sum -/

theorem toNat_foldl_bits {operand : FieldName → Int} (ps : List FieldPos) (hps : ∀ p ∈ ps, p.hi < 16 ∧ p.lo ≤ p.hi)
    (w : Word16) : (ps.foldl (fun w p => w ||| p.bits (operand p.name)) w).toNat =
      ps.foldl (fun n p => n ||| place (operand p.name) (p.hi - p.lo + 1) p.lo) w.toNat := by
  induction ps generalizing w with
  | nil => rfl
  | cons p ps ih =>
    obtain ⟨⟨hhi, hlo⟩, hps⟩ := List.forall_mem_cons.1 hps
    rw [List.foldl_cons, ih hps, BitVec.toNat_or, p.toNat_bits hhi hlo, List.foldl_cons]

/-- Disjoint patterns are combined without a carry. -/
theorem toNat_foldl_bits_eq_sum {operand : FieldName → Int} (ps : List FieldPos)
    (hps : ∀ p ∈ ps, p.hi < 16 ∧ p.lo ≤ p.hi) (hdisj : ps.Pairwise fun p q => p.mask &&& q.mask = 0#16) (w : Word16)
    (hw : ∀ p ∈ ps, w &&& p.mask = 0#16) : (ps.foldl (fun w p => w ||| p.bits (operand p.name)) w).toNat =
      w.toNat + (ps.map fun p => place (operand p.name) (p.hi - p.lo + 1) p.lo).sum := by
  induction ps generalizing w with
  | nil => rfl
  | cons p ps ih =>
    obtain ⟨⟨hhi, hlo⟩, hps⟩ := List.forall_mem_cons.1 hps
    obtain ⟨hp, hdisj⟩ := List.pairwise_cons.1 hdisj
    obtain ⟨hwp, hw⟩ := List.forall_mem_cons.1 hw
    have hcarry : w &&& p.bits (operand p.name) = 0#16 := by
      rw [← p.bits_and_mask, BitVec.and_comm (p.bits _), ← BitVec.and_assoc, hwp, BitVec.zero_and]
    have hrest : ∀ q ∈ ps, (w ||| p.bits (operand p.name)) &&& q.mask = 0#16 := fun q hq => by
      rw [BitVec.and_or_distrib_right, hw q hq, FieldPos.bits_and_of_disjoint (hp q hq), BitVec.or_zero]
    rw [List.foldl_cons, ih hps hdisj _ hrest, ← BitVec.add_eq_or_of_and_eq_zero _ _ hcarry,
      BitVec.toNat_add_of_and_eq_zero hcarry, p.toNat_bits hhi hlo, List.map_cons, List.sum_cons, Nat.add_assoc]

end Sys2Proof

/-! # Reading back what was encoded

SUPPORT. An operand in its range is recovered from its field (R64, R68, R69), so a validated descriptor is what its own
word reads as in the fields of its form. -/

namespace Sys2Proof

/-- The width and the range that the type of a field gives an operand (R28, R61): a register stands in three bits, a
number in the range of its field's own width. -/
def FieldPos.Admits (c : Config) (p : FieldPos) (v : Int) : Prop :=
  (p.name ∈ [FieldName.dr, .sr, .sr1, .sr2, .base_r] → p.hi = p.lo + 2 ∧ inReg v) ∧
  (p.name ∈ [FieldName.imm5, .pc_offset, .offset6, .boffset6] → inS (p.hi - p.lo + 1) v) ∧
  (p.name ∈ [FieldName.amount4, .trapvect8] → inUnsignedField c.unsignedFields (p.hi - p.lo + 1) v)

theorem inS_eleven_of_inS_jsrRange {c : Config} {v : Int} (h : inS c.jsrRange.bits v) : inS 11 v := by
  cases hrange : c.jsrRange <;> simp only [hrange, JsrRange.bits, inS] at h ⊢ <;> omega

theorem row_field_admits {c : Config} {i : Instr} (h : i.operandsInRange c = true) :
    ∀ p ∈ (row c i.form).fields, p.Admits c (i.operand p.name) := by
  cases i with
  | jsr off =>
    have hoff := inS_eleven_of_inS_jsrRange (of_decide_eq_true h)
    simpa [Instr.form, row, FieldPos.Admits, Instr.operand, Instr.toRaw, RawDescriptor.get] using hoff
  | rti => simp [Instr.form, row]
  | _ =>
    simpa [Instr.form, row, FieldPos.Admits, Instr.operand, Instr.toRaw, RawDescriptor.get, Instr.operandsInRange, inS,
      inU, inUnsignedField, and_assoc, -Order.le_sub_one_iff] using h

section Recovered
variable {c : Config} {i : Instr} {p : FieldPos} (h : i.operandsInRange c = true) (hp : p ∈ (row c i.form).fields)
include h hp

theorem register_recovered (hname : p.name ∈ [FieldName.dr, .sr, .sr1, .sr2, .base_r]) :
    p.hi = p.lo + 2 ∧ (field (encode c i) p.hi p.lo : Int) = i.operand p.name := by
  obtain ⟨hregister, -, -⟩ := row_field_admits h p hp
  obtain ⟨hhi, hrange⟩ := hregister hname
  rw [field_encode hp, show p.hi - p.lo + 1 = 3 by omega]
  exact ⟨hhi, mask_eq_of_inU hrange⟩

theorem signed_recovered (hname : p.name ∈ [FieldName.imm5, .pc_offset, .offset6, .boffset6]) :
    sext (p.hi - p.lo + 1) (field (encode c i) p.hi p.lo) = i.operand p.name := by
  obtain ⟨-, hsigned, -⟩ := row_field_admits h p hp
  rw [field_encode hp, sext_mask (Nat.succ_pos _) (hsigned hname)]

/-- The range rule in force says how the field is read. -/
theorem unsigned_recovered (hname : p.name ∈ [FieldName.amount4, .trapvect8]) :
    (c.unsignedFields = .unsigned → zext (p.hi - p.lo + 1) (field (encode c i) p.hi p.lo) = i.operand p.name) ∧
    (c.unsignedFields = .signed → sext (p.hi - p.lo + 1) (field (encode c i) p.hi p.lo) = i.operand p.name) := by
  obtain ⟨-, -, hunsigned⟩ := row_field_admits h p hp
  rw [field_encode hp]
  obtain ⟨hrule, hrange⟩ | ⟨hrule, hrange⟩ := hunsigned hname <;> rw [hrule]
  · exact ⟨fun _ => mask_eq_of_inU hrange, nofun⟩
  · exact ⟨nofun, fun _ => sext_mask (Nat.succ_pos _) hrange⟩

end Recovered

theorem readBit_encode_of_flag {c : Config} {i : Instr} {name : FieldName} {k : Nat} {b : Bool}
    (hp : ⟨name, k, k⟩ ∈ (row c i.form).fields) (hb : i.operand name = (bit b : Int)) :
    readBit (encode c i) k = b := by
  rw [readBit, field_encode hp, hb, Nat.sub_self]
  cases b <;> rfl

theorem readUnsigned_eq_iff {c : Config} {w : Word16} {N : Nat} {v : Int} : readUnsigned c w N = v ↔
    (c.unsignedFields = .unsigned → zext N (field w (N - 1) 0) = v) ∧
    (c.unsignedFields = .signed → sext N (field w (N - 1) 0) = v) := by
  cases hrule : c.unsignedFields <;> simp [readUnsigned, hrule]

/-- A descriptor in range is what its own word reads as. -/
theorem readAs_encode {c : Config} {i : Instr} (h : i.operandsInRange c = true) :
    readAs c (encode c i) i.form = i := by
  have hregister (p) := register_recovered (p := p) h
  have hsigned (p) := signed_recovered (p := p) h
  have hunsigned (p) := unsigned_recovered (p := p) h
  cases i with
  | br n z p off =>
    have hn : readBit (encode c (.br n z p off)) 11 = n :=
      readBit_encode_of_flag (name := .n) (by simp [Instr.form, row]) rfl
    have hz : readBit (encode c (.br n z p off)) 10 = z :=
      readBit_encode_of_flag (name := .z) (by simp [Instr.form, row]) rfl
    have hp : readBit (encode c (.br n z p off)) 9 = p :=
      readBit_encode_of_flag (name := .p) (by simp [Instr.form, row]) rfl
    simp [Instr.form, row, Instr.operand, Instr.toRaw, RawDescriptor.get] at hsigned
    simp [Instr.form, readAs, readSigned, hn, hz, hp, hsigned]
  | lshf | rshfl | rshfa | trap =>
    simp [Instr.form, row, Instr.operand, Instr.toRaw, RawDescriptor.get] at hregister hunsigned
    simpa [Instr.form, readAs, readReg, zext, readUnsigned_eq_iff, hregister] using hunsigned
  | _ =>
    simp [Instr.form, row, Instr.operand, Instr.toRaw, RawDescriptor.get] at hregister hsigned
    simp [Instr.form, readAs, readMem, readReg, zext, readSigned, hregister, hsigned]

end Sys2Proof

/-! # The fixed bits of each form

SUPPORT. The bits that R74 and the opcode map (R72) name, read off the row of the form. -/

namespace Sys2Proof

/-- Format RR (R66): the mode bit and bits [4:3] are zero. -/
theorem field_encode_regForm (c : Config) {i : Instr} (h : i.form = .ADD ∨ i.form = .AND ∨ i.form = .XOR) :
    field (encode c i) 5 5 = 0 ∧ field (encode c i) 4 3 = 0 := by
  constructor <;> refine field_encode_of_fixed ?_ <;> rcases h with h | h | h <;> cases hand : c.andOpcode <;>
    simp [h, row, andBase, hand, AndOpcode.bits, field]

/-- Format RI (R66): the mode bit is set. -/
theorem field_encode_immForm (c : Config) {i : Instr} (h : i.form = .ADD_imm ∨ i.form = .AND_imm ∨ i.form = .XOR_imm) :
    field (encode c i) 5 5 = 1 := by
  refine field_encode_of_fixed ?_
  rcases h with h | h | h <;> cases hand : c.andOpcode <;> simp [h, row, andBase, hand, AndOpcode.bits, field]

theorem field_encode_notReg (c : Config) (dr sr : Int) : field (encode c (.notReg dr sr)) 5 0 = 63 :=
  field_encode_of_fixed (by simp [Instr.form, row, field])

theorem field_encode_jmp (c : Config) (b : Int) :
    field (encode c (.jmp b)) 11 9 = 0 ∧ field (encode c (.jmp b)) 5 0 = 0 := by
  constructor <;> exact field_encode_of_fixed (by simp [Instr.form, row, field])

theorem field_encode_jsr (c : Config) (off : Int) : field (encode c (.jsr off)) 11 11 = 1 :=
  field_encode_of_fixed (by simp [Instr.form, row, field])

theorem field_encode_jsrr (c : Config) (b : Int) : field (encode c (.jsrr b)) 11 11 = 0 ∧
    field (encode c (.jsrr b)) 10 9 = 0 ∧ field (encode c (.jsrr b)) 5 0 = 0 := by
  refine ⟨?_, ?_, ?_⟩ <;> exact field_encode_of_fixed (by simp [Instr.form, row, field])

theorem field_encode_trap (c : Config) (v : Int) : field (encode c (.trap v)) 11 8 = 0 :=
  field_encode_of_fixed (by simp [Instr.form, row, field])

theorem field_encode_rti (c : Config) : field (encode c .rti) 11 0 = 0 :=
  field_encode_of_fixed (by simp [Instr.form, row, field])

/-! # The descriptor the decoder answers

SUPPORT. `Instr.canonical` has the word of its argument and is its own canonical form, so decoding the word of any
descriptor is decoding the word of a canonical one, which the opcode map reads as its own form. -/

/-- The row of XOR_imm with all of imm5 set is the row of NOT (R76). -/
theorem encode_notReg (c : Config) (dr sr : Int) : encode c (.notReg dr sr) = encode c (.xorImm dr sr (-1)) := by
  have hones : (⟨.imm5, 4, 0⟩ : FieldPos).bits (-1) = 0x1F#16 := rfl
  have hbase : 0x903F#16 = 0x9020#16 ||| 0x1F#16 := rfl
  simp only [encode, Instr.form, row, List.foldl, Instr.operand, Instr.toRaw, RawDescriptor.get, Option.map, hones,
    hbase]
  ac_rfl

/-- A 6-bit offset of 0..7 is packed as `sr2` with bits [5:3] zero. -/
theorem encode_stb_eq_andReg {c : Config} (hand : c.andOpcode = .sourceTable) (sr b : Int) {off : Int} (h0 : 0 ≤ off)
    (h7 : off ≤ 7) : encode c (.stb sr b off) = encode c (.andReg sr b off) := by
  have hmask : mask 6 off = mask 3 off := by
    have h6 : (mask 6 off : Int) = off := mask_eq_of_inU ⟨h0, by omega⟩
    have h3 : (mask 3 off : Int) = off := mask_eq_of_inU ⟨h0, by omega⟩
    omega
  simp [encode_eq_foldl_place, Instr.form, row, Instr.operand, Instr.toRaw, RawDescriptor.get, place, hmask, andBase,
    hand, AndOpcode.bits]

/-- A negative 6-bit offset is packed as the mode bit and the low five bits. -/
theorem mask_six_of_neg {off : Int} (hlo : -32 ≤ off) (hhi : off < 0) : mask 6 off = 0x20 ||| mask 5 off := by
  have hadd : 2 ^ 5 * 1 + mask 5 off = 2 ^ 5 * 1 ||| mask 5 off := Nat.two_pow_add_eq_or_of_lt (mask_lt 5 off) 1
  rw [show 0x20 = 2 ^ 5 * 1 from rfl, ← hadd]
  unfold mask
  omega

theorem encode_stb_eq_andImm {c : Config} (hand : c.andOpcode = .sourceTable) (sr b : Int) {off : Int} (hlo : -32 ≤ off)
    (hhi : off < 0) : encode c (.stb sr b off) = encode c (.andImm sr b (sext 5 (mask 5 off))) := by
  simp only [encode_eq_foldl_place, Instr.form, row, List.foldl, Instr.operand, Instr.toRaw, RawDescriptor.get,
    Option.map, place, mask_six_of_neg hlo hhi, mask_sext (mask_lt 5 off), andBase, hand, AndOpcode.bits,
    Nat.shiftLeft_zero, BitVec.ofNat_or]
  rw [show (0x3000#16 : Word16) = BitVec.ofNat 16 3 <<< 12 from rfl]
  ac_rfl

/-- The two kinds of word that two forms share (R73, R76), and the form that is read then (log entry 6). -/
theorem canonical_cases (c : Config) (i : Instr) : i.canonical c = i ∨
    (∃ dr sr1, i = .xorImm dr sr1 (-1) ∧ i.canonical c = .notReg dr sr1) ∨
    (c.andOpcode = .sourceTable ∧ ∃ sr b off, i = .stb sr b off ∧
      (off < 0 ∧ i.canonical c = .andImm sr b (sext 5 (mask 5 off)) ∨
        0 ≤ off ∧ off ≤ 7 ∧ i.canonical c = .andReg sr b off)) := by
  cases i with
  | xorImm dr sr1 imm5 =>
    by_cases hones : imm5 = -1
    · subst hones
      exact .inr (.inl ⟨dr, sr1, rfl, rfl⟩)
    · exact .inl (if_neg hones)
  | stb sr b off =>
    cases hand : c.andOpcode with
    | lc3b => exact .inl (by simp [Instr.canonical, hand])
    | sourceTable =>
      by_cases hneg : off < 0
      · exact .inr (.inr ⟨rfl, sr, b, off, rfl, .inl ⟨hneg, by simp [Instr.canonical, hand, hneg]⟩⟩)
      by_cases hlow : off ≤ 7
      · exact .inr (.inr ⟨rfl, sr, b, off, rfl, .inr ⟨by omega, hlow, by simp [Instr.canonical, hand, hneg, hlow]⟩⟩)
      · exact .inl (by simp [Instr.canonical, hand, hneg, hlow])
  | _ => exact .inl rfl

theorem canonical_default_cases (i : Instr) : i.canonical Config.default = i ∨
    ∃ dr sr1, i = .xorImm dr sr1 (-1) ∧ i.canonical Config.default = .notReg dr sr1 := by
  obtain heq | hxor | ⟨hand, -⟩ := canonical_cases Config.default i
  · exact .inl heq
  · exact .inr hxor
  · cases hand

theorem canonical_canonical (c : Config) (i : Instr) : (i.canonical c).canonical c = i.canonical c := by
  obtain h | ⟨dr, sr1, rfl, h⟩ | ⟨-, sr, b, off, rfl, ⟨-, h⟩ | ⟨-, -, h⟩⟩ := canonical_cases c i
  · rw [h, h]
  all_goals rw [h]; rfl

theorem inS_sext {N u : Nat} (hN : 0 < N) (hu : u < 2 ^ N) : inS N (sext N u) := by
  obtain ⟨k, rfl⟩ : ∃ k, N = k + 1 := ⟨N - 1, by omega⟩
  have hk : (2 ^ (k + 1) : Nat) = 2 * 2 ^ k := by rw [pow_succ, Nat.mul_comm]
  unfold sext inS
  simp only [Nat.add_sub_cancel, hk] at hu ⊢
  split_ifs <;> omega

/-- AND is always admitted, and NOT when XOR is (R12). -/
theorem wellFormed_canonical {c : Config} {i : Instr} (h : i.wellFormed c = true) :
    (i.canonical c).wellFormed c = true := by
  obtain ⟨hadm, hrange⟩ := wellFormed_iff.1 h
  obtain heq | ⟨dr, sr1, rfl, heq⟩ | ⟨-, sr, b, off, rfl, ⟨-, heq⟩ | ⟨h0, h7, heq⟩⟩ := canonical_cases c i
  · rwa [heq]
  all_goals
    simp only [Instr.operandsInRange, Bool.and_eq_true, decide_eq_true_eq] at hrange
    obtain ⟨hregs, -⟩ := hrange
    rw [heq, wellFormed_iff]
  · exact ⟨hadm, by simpa [Instr.operandsInRange] using hregs⟩
  · exact ⟨rfl, by simpa [Instr.operandsInRange] using ⟨hregs, inS_sext (by decide) (mask_lt 5 off)⟩⟩
  · exact ⟨rfl, by simpa [Instr.operandsInRange, h0, h7] using hregs⟩

theorem encode_canonical {c : Config} {i : Instr} (h : i.operandsInRange c = true) :
    encode c (i.canonical c) = encode c i := by
  obtain heq | ⟨dr, sr1, rfl, heq⟩ | ⟨hand, sr, b, off, rfl, ⟨hneg, heq⟩ | ⟨h0, h7, heq⟩⟩ := canonical_cases c i <;>
    rw [heq]
  · exact encode_notReg c dr sr1
  · simp only [Instr.operandsInRange, Bool.and_eq_true, decide_eq_true_eq] at h
    obtain ⟨-, hlo, -⟩ := h
    exact (encode_stb_eq_andImm hand sr b hlo hneg).symm
  · exact (encode_stb_eq_andReg hand sr b h0 h7).symm

/-- At `AND_OPCODE = 0b0011` an AND word is that of an STB with the same low six bits, read as its offset (R73). -/
theorem exists_stb_of_and {c : Config} {i : Instr} (hand : c.andOpcode = .sourceTable) (hgk : c.gkLayouts = .on)
    (hwf : i.wellFormed c = true) (hi : i.variant = .AND) :
    ∃ j : Instr, j.wellFormed c = true ∧ j.variant = .STB ∧ encode c j = encode c i := by
  have hadm : tagAdmitted c .STB = true := (Machine.tagAdmitted_iff c .STB).2 (.inr hgk)
  obtain ⟨-, hrange⟩ := wellFormed_iff.1 hwf
  cases i with
  | andReg dr sr1 sr2 =>
    simp only [Instr.operandsInRange, Bool.and_eq_true, decide_eq_true_eq, inReg] at hrange
    obtain ⟨⟨hdr, hsr1⟩, h0, h7⟩ := hrange
    refine ⟨.stb dr sr1 sr2, wellFormed_iff.2 ⟨hadm, ?_⟩, rfl, encode_stb_eq_andReg hand dr sr1 h0 h7⟩
    simp only [Instr.operandsInRange, Bool.and_eq_true, decide_eq_true_eq]
    exact ⟨⟨hdr, hsr1⟩, by omega, by omega⟩
  | andImm dr sr1 imm5 =>
    simp only [Instr.operandsInRange, Bool.and_eq_true, decide_eq_true_eq] at hrange
    obtain ⟨⟨hdr, hsr1⟩, himm5⟩ := hrange
    obtain ⟨off, hlo, hhi, hmask⟩ : ∃ off : Int, -32 ≤ off ∧ off < 0 ∧ mask 5 off = mask 5 imm5 := by
      by_cases hneg : imm5 < 0
      · exact ⟨imm5, by omega, hneg, rfl⟩
      · exact ⟨imm5 - 32, by omega, by omega, by unfold mask; omega⟩
    refine ⟨.stb dr sr1 off, wellFormed_iff.2 ⟨hadm, ?_⟩, rfl, ?_⟩
    · simp only [Instr.operandsInRange, Bool.and_eq_true, decide_eq_true_eq]
      exact ⟨⟨hdr, hsr1⟩, hlo, by omega⟩
    · rw [encode_stb_eq_andImm hand dr sr1 hlo hhi, hmask, sext_mask (by decide) himm5]
  | _ => cases hi

/-! ## Reading the word of a canonical descriptor -/

theorem readOperate_of_reg {t : VariantTag} {reg imm : Int → Int → Int → Instr} {w : Word16}
    (h : field w 5 5 = 0 ∧ field w 4 3 = 0) :
    readOperate t reg imm w = .ok (reg (readReg w 9) (readReg w 6) (readReg w 0)) := by
  simp [readOperate, h]

theorem readOperate_of_imm {t : VariantTag} {reg imm : Int → Int → Int → Instr} {w : Word16} (h : field w 5 5 = 1) :
    readOperate t reg imm w = .ok (imm (readReg w 9) (readReg w 6) (readSigned w 5)) := by
  simp [readOperate, h]

theorem readForm_of_and_opcode {c : Config} {w : Word16} {i : Instr} (hop : field w 15 12 = c.andOpcode.bits)
    (h : readOperate .AND .andReg .andImm w = .ok i) : readForm c w = .ok i := by
  cases hand : c.andOpcode <;> simp [readForm, hop, hand, AndOpcode.bits, readOpcode3, h]

/-- The narrower fields of the low six bits. -/
theorem field_low_six (w : Word16) : field w 5 0 = 32 * field w 5 5 + field w 4 0 ∧
    field w 4 3 = field w 4 0 / 8 := by
  simp only [field, Nat.shiftRight_eq_div_pow]
  omega

theorem readXor_of_ne {w : Word16} (h : field w 5 0 ≠ 63) : readXor w = readOperate .XOR .xorReg .xorImm w :=
  if_neg h

/-- Without imm5 = -1 the low six bits are not NOT's. -/
theorem field_encode_xorImm_ne {c : Config} {dr sr1 imm5 : Int}
    (h : (Instr.xorImm dr sr1 imm5).operandsInRange c = true) (hne : imm5 ≠ -1) :
    field (encode c (.xorImm dr sr1 imm5)) 5 0 ≠ 63 := by
  intro hones
  have himm5 : sext 5 (field (encode c (.xorImm dr sr1 imm5)) 4 0) = imm5 :=
    signed_recovered (p := ⟨.imm5, 4, 0⟩) h (by simp [Instr.form, row]) (by simp)
  have hmode := field_encode_immForm c (i := .xorImm dr sr1 imm5) (.inr (.inr rfl))
  obtain ⟨hlow, -⟩ := field_low_six (encode c (.xorImm dr sr1 imm5))
  rw [show field (encode c (.xorImm dr sr1 imm5)) 4 0 = 31 by omega] at himm5
  exact hne himm5.symm

/-- An STB word is read as STB where AND has another opcode, and where the offset leaves none of AND's two shapes. -/
theorem readOpcode3_encode_stb {c : Config} {sr b off : Int} (h : (Instr.stb sr b off).operandsInRange c = true)
    (hc : (Instr.stb sr b off).canonical c = .stb sr b off) :
    readOpcode3 c (encode c (.stb sr b off)) = .ok (readMem .stb (encode c (.stb sr b off))) := by
  cases hand : c.andOpcode with
  | lc3b => simp [readOpcode3, hand]
  | sourceTable =>
    have hlo : 8 ≤ off := by
      simp only [Instr.canonical, hand] at hc
      split_ifs at hc
      omega
    have hhi : off ≤ 31 := by
      simp only [Instr.operandsInRange, Bool.and_eq_true, decide_eq_true_eq, inS] at h
      omega
    have hoff : (field (encode c (.stb sr b off)) 5 0 : Int) = off := by
      rw [field_encode (p := ⟨.boffset6, 5, 0⟩) (by simp [Instr.form, row])]
      exact mask_eq_of_inU (N := 6) (v := off) ⟨by omega, by omega⟩
    obtain ⟨hlow, hzero⟩ := field_low_six (encode c (.stb sr b off))
    simp [readOpcode3, hand, readOperate, show field (encode c (.stb sr b off)) 5 5 ≠ 1 by omega,
      show field (encode c (.stb sr b off)) 4 3 ≠ 0 by omega]

theorem readShf_encode (c : Config) (dr sr : Int) (kind : ShiftType) (a : Int) {w : Word16}
    (hw : encode c (Machine.shfForm dr sr kind a) = w) :
    readShf c w = .ok (Machine.shfForm (readReg w 9) (readReg w 6) kind (readUnsigned c w 4)) := by
  rw [readShf, ← hw, field_encode_shfForm]
  cases kind <;> rfl

/-- The opcode map of R72 reads the word of a canonical descriptor as its form. -/
theorem readForm_encode_of_canonical {c : Config} {i : Instr} (h : i.operandsInRange c = true)
    (hc : i.canonical c = i) : readForm c (encode c i) = .ok i := by
  have hread : (.ok (readAs c (encode c i) i.form) : Except DecodeError Instr) = .ok i := congrArg _ (readAs_encode h)
  have hop := field_encode_opcode c i
  cases i
  case andReg dr sr1 sr2 =>
    have hreg := field_encode_regForm c (i := .andReg dr sr1 sr2) (.inr (.inl rfl))
    exact readForm_of_and_opcode hop ((readOperate_of_reg hreg).trans hread)
  case andImm dr sr1 imm5 =>
    have himm := field_encode_immForm c (i := .andImm dr sr1 imm5) (.inr (.inl rfl))
    exact readForm_of_and_opcode hop ((readOperate_of_imm himm).trans hread)
  all_goals rw [readForm, hop]
  case br | lea | ldw | stw | ldb => exact hread
  case stb => exact (readOpcode3_encode_stb h hc).trans hread
  case addReg => exact (readOperate_of_reg (field_encode_regForm c (.inl rfl))).trans hread
  case addImm => exact (readOperate_of_imm (field_encode_immForm c (.inl rfl))).trans hread
  case xorReg dr sr1 sr2 =>
    have hreg := field_encode_regForm c (i := .xorReg dr sr1 sr2) (.inr (.inr rfl))
    have hlt := field_lt (encode c (.xorReg dr sr1 sr2)) 4 0
    obtain ⟨hlow, -⟩ := field_low_six (encode c (.xorReg dr sr1 sr2))
    exact (readXor_of_ne (by omega)).trans ((readOperate_of_reg hreg).trans hread)
  case xorImm dr sr1 imm5 =>
    have himm := field_encode_immForm c (i := .xorImm dr sr1 imm5) (.inr (.inr rfl))
    have hones := field_encode_xorImm_ne h (by rintro rfl; cases hc)
    exact (readXor_of_ne hones).trans ((readOperate_of_imm himm).trans hread)
  case notReg dr sr => exact (if_pos (field_encode_notReg c dr sr)).trans hread
  case lshf dr sr a => exact (readShf_encode c dr sr .LSHF a rfl).trans hread
  case rshfl dr sr a => exact (readShf_encode c dr sr .RSHFL a rfl).trans hread
  case rshfa dr sr a => exact (readShf_encode c dr sr .RSHFA a rfl).trans hread
  case jmp b => exact (if_pos (field_encode_jmp c b)).trans hread
  case jsr off => exact (if_pos (readBit_iff.2 (field_encode_jsr c off))).trans hread
  case jsrr b =>
    obtain ⟨hbit, hfixed⟩ := field_encode_jsrr c b
    exact (if_neg (by simp [readBit, hbit])).trans ((if_pos hfixed).trans hread)
  case trap v => exact (if_pos (field_encode_trap c v)).trans hread
  case rti => exact (if_pos (field_encode_rti c)).trans hread

theorem decode_encode {c : Config} {i : Instr} (h : i.wellFormed c = true) :
    decode c (encode c i) = .ok (i.canonical c) := by
  have hwf := wellFormed_canonical h
  rw [← encode_canonical (wellFormed_iff.1 h).2]
  exact decode_ok_iff.2 ⟨readForm_encode_of_canonical (wellFormed_iff.1 hwf).2 (canonical_canonical c i), hwf⟩

end Sys2Proof

/-! # Encoding (30_encoding.md): the obligations -/

namespace Sys2Proof.Machine

/-- Settles O2: the word is also that of the canonical form, which the opcode map reads as its own form. -/
theorem decodeOfEncodeIsCanonical : Obligations.DecodeOfEncodeIsCanonical := by
  refine ⟨fun c i => decode_encode, fun c i hne => ?_⟩
  obtain heq | ⟨dr, sr1, rfl, -⟩ | ⟨hand, sr, b, off, rfl, -⟩ := canonical_cases c i
  · exact absurd heq hne
  · exact .inl ⟨dr, sr1, rfl⟩
  · exact .inr ⟨hand, sr, b, off, rfl⟩

/-- Settles O4: descriptors with one word have one canonical form, and at the defaults only XOR with imm5 = -1 is not
its own. -/
theorem onlyNotAndXorShareAWord : Obligations.OnlyNotAndXorShareAWord := by
  refine ⟨encode_notReg, fun c i => exists_stb_of_and, fun i j hi hj hform hword => ?_⟩
  have hcanonical : i.canonical Config.default = j.canonical Config.default := by
    have hdecode := (decode_encode hi).symm.trans (hword ▸ decode_encode hj)
    exact Except.ok.inj hdecode
  obtain heqi | ⟨dr, sr, rfl, heqi⟩ := canonical_default_cases i <;>
    obtain heqj | ⟨dr', sr', rfl, heqj⟩ := canonical_default_cases j <;> rw [heqi, heqj] at hcanonical
  · exact absurd (congrArg Instr.form hcanonical) hform
  · exact ⟨dr', sr', .inl ⟨hcanonical, rfl⟩⟩
  · exact ⟨dr, sr, .inr ⟨hcanonical.symm, rfl⟩⟩
  · exact absurd rfl hform

/-- Settles O5: a descriptor is its word read as a word of its form; the two ADD descriptors differ in the mode bit. -/
theorem encodeIsInjectiveInAForm : Obligations.EncodeIsInjectiveInAForm := by
  refine ⟨fun c i j hi hj hform hword => ?_, fun c h => ?_⟩
  · calc i = readAs c (encode c i) i.form := (readAs_encode (wellFormed_iff.1 hi).2).symm
      _ = readAs c (encode c j) j.form := by rw [hword, hform]
      _ = j := readAs_encode (wellFormed_iff.1 hj).2
  · obtain ⟨hreg, -⟩ := field_encode_regForm c (i := .addReg 1 2 3) (.inl rfl)
    rw [h, field_encode_immForm c (.inl rfl)] at hreg
    cases hreg

/-- Settles O6: the rows partition the word, so the fields are combined without a carry. -/
theorem fieldsPartitionTheWord : Obligations.FieldsPartitionTheWord := by
  refine ⟨fun c f => ⟨row_pattern_and_not_mask c f, row_fields_disjoint c f, row_fields_disjoint_mask c f,
    row_mask_fields_cover c f⟩, fun i s => ⟨encode s.config i, exec_eq_respond_encode i s, ?_, ?_⟩⟩
  · exact toNat_foldl_bits _ (row_fields_within_word s.config i.form) _
  · exact toNat_foldl_bits_eq_sum _ (row_fields_within_word s.config i.form) (row_fields_disjoint s.config i.form) _
      fun _ => row_pattern_and_field

/-- Settles O20: the pattern of a register number is the number. -/
theorem registerFieldsAreRecovered : Obligations.RegisterFieldsAreRecovered := by
  intro s i hwf
  refine ⟨encode s.config i, exec_eq_respond_encode i s, fun p hp hname => ?_⟩
  obtain ⟨hhi, hfield⟩ := register_recovered (wellFormed_iff.1 hwf).2 hp hname
  have hplace : field (encode s.config i) p.hi p.lo = place (i.operand p.name) 3 p.lo >>> p.lo := by
    rw [field_encode hp, place_shiftRight, show p.hi - p.lo + 1 = 3 by omega]
  exact ⟨hhi, hplace, hfield⟩

/-- Settles O21: sign extension undoes the pattern of a value in the signed range. -/
theorem signedFieldsAreRecovered : Obligations.SignedFieldsAreRecovered := by
  intro s i hwf
  refine ⟨encode s.config i, exec_eq_respond_encode i s, fun p hp hname => ⟨field_encode hp, ?_⟩⟩
  exact signed_recovered (wellFormed_iff.1 hwf).2 hp hname

/-- Settles O22: the range rule in force is the reading that undoes the pattern. -/
theorem unsignedFieldsAreRecovered : Obligations.UnsignedFieldsAreRecovered := by
  intro s i hwf
  refine ⟨encode s.config i, exec_eq_respond_encode i s, fun p hp hname => ⟨field_encode hp, ?_⟩⟩
  exact unsigned_recovered (wellFormed_iff.1 hwf).2 hp hname

/-- The word of an admitted request is that of the descriptor whose request it is (R19). -/
theorem exists_instr_of_run_ok {c : Config} {r : RawDescriptor} {w : Word16} (h : run c r = .ok w) :
    ∃ i : Instr, i.wellFormed c = true ∧ r = i.toRaw ∧ w = encode c i := by
  unfold run at h
  split at h
  · next i hi =>
    obtain ⟨hwf, hr⟩ := construct_ok_iff.1 hi
    exact ⟨i, hwf, hr, (Except.ok.inj h).symm⟩
  · cases h

/-- Settles O23: the field that is present is the form's, and the row of the form has its mode bit. -/
theorem modeBitFollowsTheOperand : Obligations.ModeBitFollowsTheOperand := by
  intro c r w htag hrun
  obtain ⟨i, hwf, rfl, rfl⟩ := exists_instr_of_run_ok hrun
  obtain ⟨-, hrange⟩ := wellFormed_iff.1 hwf
  cases i with
  | addReg dr sr1 sr2 | andReg dr sr1 sr2 | xorReg dr sr1 sr2 =>
    refine ⟨fun v hv => ?_, nofun⟩
    cases hv
    exact and_assoc.1 ⟨field_encode_regForm c (by simp [Instr.form]),
      (register_recovered (p := ⟨.sr2, 2, 0⟩) hrange (by simp [Instr.form, row]) (by simp)).2⟩
  | addImm dr sr1 imm5 | andImm dr sr1 imm5 | xorImm dr sr1 imm5 =>
    refine ⟨nofun, fun v hv => ?_⟩
    cases hv
    exact ⟨field_encode_immForm c (by simp [Instr.form]),
      signed_recovered (p := ⟨.imm5, 4, 0⟩) hrange (by simp [Instr.form, row]) (by simp)⟩
  | _ => simp [Instr.toRaw] at htag

/-- Settles O24: no operand reaches the bits of its row's mask. -/
theorem fixedZeroBitsStayZero : Obligations.FixedZeroBitsStayZero := by
  refine ⟨fun c f i hf => hf ▸ encode_and_mask c i, fun c a b d => ⟨?_, ?_, ?_⟩, field_encode_jmp, field_encode_jsrr,
    field_encode_trap, field_encode_rti⟩
  all_goals exact (field_encode_regForm c (by simp [Instr.form])).2

/-- Settles O1, word by word. -/
theorem specWordsDecode : Obligations.SpecWordsDecode :=
  ⟨rfl, rfl, rfl, rfl, rfl, rfl, rfl, rfl, rfl, rfl⟩

end Sys2Proof.Machine

/-! # A request edited in one field

SUPPORT. The three checks of construction read a request only through what it carries in the fields they name (R203 to
R205). So the request of a validated descriptor, edited in one field, can violate only the checks of that field. -/

namespace Sys2Proof

@[simp] theorem RawDescriptor.setInt_tag (r : RawDescriptor) (f : FieldName) (v : Int) :
    (r.setInt f v).tag = r.tag := by
  cases f <;> rfl

@[simp] theorem RawDescriptor.clear_tag (r : RawDescriptor) (f : FieldName) : (r.clear f).tag = r.tag := by
  cases f <;> rfl

/-- The fields that carry an integer are the register and the numeric ones. -/
theorem RawDescriptor.get_setInt_self {f : FieldName} (hf : f.isRegister = true ∨ f.isNumeric = true)
    (r : RawDescriptor) (v : Int) : (r.setInt f v).get f = some (.int v) := by
  cases f with
  | n | z | p | shift_type => simp [FieldName.isRegister, FieldName.isNumeric] at hf
  | _ => rfl

/-- The fields of a request are distinct (R200). -/
theorem RawDescriptor.get_setInt_of_ne {f g : FieldName} (h : g ≠ f) (r : RawDescriptor) (v : Int) :
    (r.setInt f v).get g = r.get g := by
  cases f <;> cases g <;> trivial

@[simp] theorem RawDescriptor.get_clear_self (r : RawDescriptor) (f : FieldName) : (r.clear f).get f = none := by
  cases f <;> rfl

theorem RawDescriptor.get_clear_of_ne {f g : FieldName} (h : g ≠ f) (r : RawDescriptor) :
    (r.clear f).get g = r.get g := by
  cases f <;> cases g <;> trivial

theorem FieldName.isRegister_iff_mem {f : FieldName} :
    f.isRegister = true ↔ f ∈ [FieldName.dr, .sr, .sr1, .sr2, .base_r] := by
  cases f <;> decide

end Sys2Proof

namespace Sys2Proof.Machine

theorem unexpectedAt_congr {t : VariantTag} {r q : RawDescriptor} {f : FieldName} (h : r.get f = q.get f) :
    unexpectedAt t r f = unexpectedAt t q f := by
  simp only [unexpectedAt, h]

theorem presenceAt_congr {r q : RawDescriptor} {sl : Slot}
    (h : ∀ f ∈ sl.fields, (r.get f).isSome = (q.get f).isSome) : presenceAt r sl = presenceAt q sl := by
  cases sl with
  | single f => simp only [presenceAt, h f (by simp [Slot.fields])]
  | pair a b => simp only [presenceAt, h a (by simp [Slot.fields]), h b (by simp [Slot.fields])]

theorem rangeAt_congr {c : Config} {t : VariantTag} {r q : RawDescriptor} {f : FieldName} (h : r.get f = q.get f) :
    rangeAt c t r f = rangeAt c t q f := by
  simp only [rangeAt, h]

theorem presenceAt_single_of_none {r : RawDescriptor} {f : FieldName} (h : r.get f = none) :
    presenceAt r (.single f) = some ⟨.MissingField, [f], none⟩ := by
  simp [presenceAt, h]

theorem presenceAt_pair_of_both {r : RawDescriptor} {a b : FieldName} (ha : (r.get a).isSome = true)
    (hb : (r.get b).isSome = true) : presenceAt r (.pair a b) = some ⟨.BothExclusivePresent, [a, b], none⟩ := by
  simp only [presenceAt, ha, hb]

theorem presenceAt_pair_of_neither {r : RawDescriptor} {a b : FieldName} (ha : r.get a = none) (hb : r.get b = none) :
    presenceAt r (.pair a b) = some ⟨.NeitherExclusivePresent, [a, b], none⟩ := by
  simp only [presenceAt, ha, hb, Option.isSome_none]

/-- What applies to a request with an admitted tag comes from one of the three checks (R203 to R205, R207). -/
theorem mem_violations_iff {c : Config} {r : RawDescriptor} {t : VariantTag} {e : InvalidOperand}
    (ht : r.tag = .admitted t) (ha : tagAdmitted c t = true) : e ∈ violations c r ↔
      (∃ f, unexpectedAt t r f = some e) ∨ (∃ sl ∈ slots t, presenceAt r sl = some e) ∨
        ∃ f ∈ slotFields t, rangeAt c t r f = some e := by
  simp [violations_of_admitted ht ha, mem_fieldOrder]

theorem mem_violations_of_presenceAt {c : Config} {r : RawDescriptor} {t : VariantTag} {sl : Slot} {e : InvalidOperand}
    (ht : r.tag = .admitted t) (ha : tagAdmitted c t = true) (hsl : sl ∈ slots t) (h : presenceAt r sl = some e) :
    e ∈ violations c r :=
  (mem_violations_iff ht ha).2 (.inr (.inl ⟨sl, hsl, h⟩))

/-- A request to which a violation applies is refused (R207). -/
theorem exists_construct_error_of_mem_violations {c : Config} {r : RawDescriptor} {e : InvalidOperand}
    (h : e ∈ violations c r) : ∃ e', construct c r = .error e' := by
  cases hv : violations c r with
  | nil =>
    rw [hv] at h
    cases h
  | cons e' es => exact ⟨_, construct_of_violation hv⟩

/-- The only violation that applies is the one reported, under every `ERROR_SELECT`. -/
theorem construct_of_only_violation {c : Config} {r : RawDescriptor} {e : InvalidOperand}
    (h : ∀ e', e' ∈ violations c r ↔ e' = e) : construct c r = .error e := by
  obtain ⟨e', he'⟩ := exists_construct_error_of_mem_violations ((h e).2 rfl)
  rw [he', (h e').1 (mem_violations_of_construct_error he')]

/-- The slots of a variant share no field (R203). -/
theorem slot_eq_single_of_mem_fields {t : VariantTag} {sl : Slot} {f : FieldName} (hf : .single f ∈ slots t)
    (hsl : sl ∈ slots t) (h : f ∈ sl.fields) : sl = .single f := by
  have disjoint : ∀ sl ∈ slots t, ∀ g ∈ sl.fields, .single g ∈ slots t → sl = .single g := by
    cases t <;> decide
  exact disjoint sl hsl f h hf

section EditedRequest

variable {c : Config} {i : Instr} {f : FieldName}

/-- A request that differs from a validated one in the field `f` alone can fail only the checks that read `f`. -/
theorem mem_violations_iff_of_edited {r : RawDescriptor} {e : InvalidOperand} (hwf : i.wellFormed c = true)
    (htag : r.tag = i.toRaw.tag) (hframe : ∀ g, g ≠ f → r.get g = i.toRaw.get g) : e ∈ violations c r ↔
      unexpectedAt i.variant r f = some e ∨
      (∃ sl ∈ slots i.variant, f ∈ sl.fields ∧ presenceAt r sl = some e) ∨
      f ∈ slotFields i.variant ∧ rangeAt c i.variant r f = some e := by
  have hadm : tagAdmitted c i.variant = true := (wellFormed_iff.1 hwf).1
  have valid : e ∉ violations c i.toRaw := by simp [violations_toRaw hwf]
  rw [mem_violations_iff (toRaw_tag i) hadm] at valid
  rw [mem_violations_iff (htag.trans (toRaw_tag i)) hadm]
  constructor
  · rintro (⟨g, he⟩ | ⟨sl, hsl, he⟩ | ⟨g, hg, he⟩)
    · by_cases hgf : g = f
      · exact .inl (hgf ▸ he)
      · rw [unexpectedAt_congr (hframe g hgf)] at he
        exact absurd (.inl ⟨g, he⟩) valid
    · by_cases hf : f ∈ sl.fields
      · exact .inr (.inl ⟨sl, hsl, hf, he⟩)
      · rw [presenceAt_congr (q := i.toRaw) fun g hg => by rw [hframe g (ne_of_mem_of_not_mem hg hf)]] at he
        exact absurd (.inr (.inl ⟨sl, hsl, he⟩)) valid
    · by_cases hgf : g = f
      · exact .inr (.inr ⟨hgf ▸ hg, hgf ▸ he⟩)
      · rw [rangeAt_congr (hframe g hgf)] at he
        exact absurd (.inr (.inr ⟨g, hg, he⟩)) valid
  · rintro (he | ⟨sl, hsl, -, he⟩ | ⟨hf, he⟩)
    · exact .inl ⟨f, he⟩
    · exact .inr (.inl ⟨sl, hsl, he⟩)
    · exact .inr (.inr ⟨f, hf, he⟩)

/-- Another integer in a field that is present can only be out of that field's range. -/
theorem mem_violations_setInt_iff {v : Int} {e : InvalidOperand} (hwf : i.wellFormed c = true)
    (hint : f.isRegister = true ∨ f.isNumeric = true) (hpresent : (i.toRaw.get f).isSome = true) :
    e ∈ violations c (i.toRaw.setInt f v) ↔ rangeAt c i.variant (i.toRaw.setInt f v) f = some e := by
  have hself := RawDescriptor.get_setInt_self hint i.toRaw v
  have hf : f ∈ slotFields i.variant := by
    by_contra hf
    simp [toRaw_get_eq_none hf] at hpresent
  have sameFields (g : FieldName) : ((i.toRaw.setInt f v).get g).isSome = (i.toRaw.get g).isSome := by
    by_cases hgf : g = f
    · rw [hgf, hself, hpresent, Option.isSome_some]
    · rw [RawDescriptor.get_setInt_of_ne hgf]
  have filled : ∀ sl ∈ slots i.variant, presenceAt (i.toRaw.setInt f v) sl = none := fun sl hsl => by
    rw [presenceAt_congr fun g _ => sameFields g]
    exact presenceAt_eq_none (by simpa using List.all_eq_true.1 (requestCarriesItsSlots i).1 sl hsl)
  rw [mem_violations_iff_of_edited hwf (RawDescriptor.setInt_tag _ _ _)
    fun g hg => RawDescriptor.get_setInt_of_ne hg _ v, unexpectedAt_eq_none (.inr hf)]
  simp +contextual [filled, hf]

/-- A value in the range of its field is admitted (R204, R205). -/
theorem exists_construct_setInt_ok {v : Int} (hwf : i.wellFormed c = true)
    (hint : f.isRegister = true ∨ f.isNumeric = true) (hpresent : (i.toRaw.get f).isSome = true)
    (hv : inFieldRange c i.variant v f = true) : ∃ j, construct c (i.toRaw.setInt f v) = .ok j := by
  have inRange : rangeAt c i.variant (i.toRaw.setInt f v) f = none :=
    rangeAt_eq_none_iff.2 fun u hu => by
      rw [RawDescriptor.get_setInt_self hint] at hu
      cases hu
      exact hv
  have valid : violations c (i.toRaw.setInt f v) = [] :=
    List.eq_nil_iff_forall_not_mem.2 fun e he => by simp [mem_violations_setInt_iff hwf hint hpresent, inRange] at he
  obtain ⟨j, hj, heq⟩ := violations_eq_nil_iff.1 valid
  exact ⟨j, construct_ok_iff.2 ⟨hj, heq⟩⟩

/-- A value out of the range of its field is the one violation, and it is reported (R204, R205). -/
theorem construct_setInt_error {v : Int} {e : InvalidOperand} (hwf : i.wellFormed c = true)
    (hint : f.isRegister = true ∨ f.isNumeric = true) (hpresent : (i.toRaw.get f).isSome = true)
    (he : rangeAt c i.variant (i.toRaw.setInt f v) f = some e) : construct c (i.toRaw.setInt f v) = .error e :=
  construct_of_only_violation fun e' => by
    rw [mem_violations_setInt_iff hwf hint hpresent, he, Option.some.injEq, eq_comm]

/-- A required field taken out is the one violation, and it is reported (R203). -/
theorem construct_clear_single (hwf : i.wellFormed c = true) (hf : .single f ∈ slots i.variant) :
    construct c (i.toRaw.clear f) = .error ⟨.MissingField, [f], none⟩ := by
  have absent : (i.toRaw.clear f).get f = none := RawDescriptor.get_clear_self _ _
  have missing := presenceAt_single_of_none absent
  refine construct_of_only_violation fun e => ?_
  rw [mem_violations_iff_of_edited hwf (RawDescriptor.clear_tag _ _) fun g hg => RawDescriptor.get_clear_of_ne hg _,
    unexpectedAt_eq_none (.inl absent), rangeAt_eq_none_iff.2 (by simp [absent])]
  constructor
  · rintro (he | ⟨sl, hsl, hmem, he⟩ | ⟨-, he⟩)
    · cases he
    · rw [slot_eq_single_of_mem_fields hf hsl hmem, missing] at he
      exact (Option.some.inj he).symm
    · cases he
  · rintro rfl
    exact .inr (.inl ⟨.single f, hf, by simp [Slot.fields], missing⟩)

end EditedRequest

end Sys2Proof.Machine

/-! # Core variants (40_core_variants.md): the obligations -/

namespace Sys2Proof.Machine

/-- Settles O32: `sr2` and `imm5` are the pair slot of the three variants, which is violated unless exactly one is
present. -/
theorem operandPairIsExclusive : Obligations.OperandPairIsExclusive := by
  intro c r t htag ht hadm
  have hpair : .pair .sr2 .imm5 ∈ slots t := by
    simp only [List.mem_cons, List.not_mem_nil, or_false] at ht
    obtain rfl | rfl | rfl := ht <;> simp [slots]
  have refused {e : InvalidOperand} (h : presenceAt r (.pair .sr2 .imm5) = some e) :
      e ∈ violations c r ∧ ∃ e', construct c r = .error e' :=
    have hmem := mem_violations_of_presenceAt htag hadm hpair h
    ⟨hmem, exists_construct_error_of_mem_violations hmem⟩
  have both (hsr2 : r.sr2.isSome = true) (himm5 : r.imm5.isSome = true) :=
    refused (presenceAt_pair_of_both (by simpa [RawDescriptor.get] using hsr2)
      (by simpa [RawDescriptor.get] using himm5))
  have neither (hsr2 : r.sr2 = none) (himm5 : r.imm5 = none) :=
    refused (presenceAt_pair_of_neither (by simp [RawDescriptor.get, hsr2]) (by simp [RawDescriptor.get, himm5]))
  refine ⟨both, neither, fun i hi => ?_⟩
  have accepted : ¬ ∃ e, construct c r = .error e := by simp [hi]
  cases hsr2 : r.sr2 with
  | none =>
    cases himm5 : r.imm5 with
    | none => exact absurd (neither hsr2 himm5).2 accepted
    | some imm5 => exact .inr ⟨rfl, rfl⟩
  | some sr2 =>
    cases himm5 : r.imm5 with
    | none => exact .inl ⟨rfl, rfl⟩
    | some imm5 => exact absurd (both (by rw [hsr2]; rfl) (by rw [himm5]; rfl)).2 accepted

/-- Settles O33: a register field has the range 0..7 in every variant, and the value put there is all that can be
wrong. -/
theorem registerRangeIsChecked : Obligations.RegisterRangeIsChecked := by
  intro c i f v hwf hf hpresent
  have hreg : f.isRegister = true := FieldName.isRegister_iff_mem.2 hf
  have hrange : inFieldRange c i.variant v f = decide (inReg v) := inFieldRange_of_isRegister hreg
  refine ⟨fun hv => exists_construct_setInt_ok hwf (.inl hreg) hpresent (by simpa [hrange] using hv),
    fun hv => construct_setInt_error hwf (.inl hreg) hpresent ?_⟩
  have hout : ¬ inReg v := by omega
  simp [rangeAt, RawDescriptor.get_setInt_self (.inl hreg), hrange, hreg, -not_and, hout]

/-- Settles O36: `n`, `z` and `p` are single slots of BR. -/
theorem brFlagsAreRequired : Obligations.BrFlagsAreRequired := by
  have required : ∀ f ∈ [FieldName.n, .z, .p], .single f ∈ slots .BR := by decide
  intro c r htag
  refine ⟨fun f hf habsent => ?_, fun n z p off hlo hhi f hf => ?_⟩
  · have hmem := mem_violations_of_presenceAt (c := c) htag rfl (required f hf) (presenceAt_single_of_none habsent)
    exact ⟨hmem, exists_construct_error_of_mem_violations hmem⟩
  · have hoff : inS 9 off := ⟨hlo, hhi⟩
    have hwf : (Instr.br n z p off).wellFormed c = true := wellFormed_iff.2 ⟨rfl, decide_eq_true hoff⟩
    exact construct_clear_single hwf (required f hf)

end Sys2Proof.Machine

/-! # The shift kind in a word (41_operate_ext.md)

SUPPORT. The descriptors of SHF are its three kinds, and bits [5:4] of their words are the kind's bits A and D. -/

namespace Sys2Proof

/-- The two bits of the field [5:4], A (bit 5) and D (bit 4), one by one (R123). -/
theorem field_five_and_four (w : Word16) :
    field w 5 5 = field w 5 4 / 2 ∧ field w 4 4 = field w 5 4 % 2 := by
  simp only [field, Nat.shiftRight_eq_div_pow]
  omega

theorem exists_shfForm_of_variant {i : Instr} (h : i.variant = .SHF) :
    ∃ dr sr kind a, i = Machine.shfForm dr sr kind a := by
  cases i with
  | lshf dr sr a => exact ⟨dr, sr, .LSHF, a, rfl⟩
  | rshfl dr sr a => exact ⟨dr, sr, .RSHFL, a, rfl⟩
  | rshfa dr sr a => exact ⟨dr, sr, .RSHFA, a, rfl⟩
  | _ => cases h

@[simp] theorem toRaw_shfForm_shift_type (dr sr : Int) (kind : ShiftType) (a : Int) :
    (Machine.shfForm dr sr kind a).toRaw.shift_type = some kind := by
  cases kind <;> rfl

/-- D is 0 for the left shift alone and A is 1 for the arithmetic right shift alone (R124). -/
theorem shiftBits_iff (kind : ShiftType) :
    (Machine.shiftBits kind % 2 = 0 ↔ kind = .LSHF) ∧
    (Machine.shiftBits kind % 2 = 1 ↔ kind = .RSHFL ∨ kind = .RSHFA) ∧
    (Machine.shiftBits kind / 2 = 1 ↔ kind = .RSHFA) := by
  cases kind <;> decide

end Sys2Proof

/-! # The operate extension (41_operate_ext.md): the obligations -/

namespace Sys2Proof.Machine

/-- Settles O25: the word is that of one of the three kinds, whose bits A and D it holds in [5:4]. -/
theorem shiftKindBits : Obligations.ShiftKindBits := by
  intro c r w htag hrun
  obtain ⟨i, -, rfl, rfl⟩ := exists_instr_of_run_ok hrun
  have hvariant : i.variant = .SHF := by simpa using htag
  obtain ⟨dr, sr, kind, a, rfl⟩ := exists_shfForm_of_variant hvariant
  obtain ⟨hA, hD⟩ := field_five_and_four (encode c (shfForm dr sr kind a))
  rw [field_encode_shfForm] at hA hD
  rw [hA, hD]
  exact ⟨field_encode_shfForm_ne c dr sr kind a, kind, toRaw_shfForm_shift_type dr sr kind a, shiftBits_iff kind⟩

end Sys2Proof.Machine

/-! # JSR's offset field, and requests that run (43_control_ext.md)

SUPPORT. A descriptor's request answers its word exactly when the descriptor is validated, and the field of a JSR word
holds the offset's pattern at both of the widths R161 reads it with. -/

namespace Sys2Proof

/-- A field that starts at bit 0 is the low end of every longer one (R13). -/
theorem field_zero_eq_mod (w : Word16) {m n : Nat} (h : m ≤ n) : field w m 0 = field w n 0 % 2 ^ (m + 1) :=
  (Nat.mod_mod_of_dvd _ (pow_dvd_pow 2 (Nat.succ_le_succ h))).symm

theorem field_encode_jsr_offset (c : Config) (v : Int) : field (encode c (.jsr v)) 10 0 = mask 11 v :=
  field_encode (i := .jsr v) (p := ⟨.pc_offset, 10, 0⟩) (by simp [Instr.form, row])

theorem field_encode_jsr_offset_low (c : Config) (v : Int) : field (encode c (.jsr v)) 8 0 = mask 9 v := by
  rw [field_zero_eq_mod _ (show 8 ≤ 10 by decide), field_encode_jsr_offset, mask_eq_mask_mod (show 9 ≤ 11 by decide)]

theorem wellFormed_jsr_iff {c : Config} {v : Int} (hgk : c.gkLayouts = .on) :
    (Instr.jsr v).wellFormed c = true ↔ inS c.jsrRange.bits v :=
  wellFormed_iff.trans ⟨fun ⟨_, hrange⟩ => of_decide_eq_true hrange, fun h => ⟨decide_eq_true hgk, decide_eq_true h⟩⟩

end Sys2Proof

namespace Sys2Proof.Machine

theorem toRaw_injective {i j : Instr} (h : i.toRaw = j.toRaw) : i = j := by
  have hbuild := congrArg buildRequest h
  rw [buildRequest_toRaw, buildRequest_toRaw] at hbuild
  exact Except.ok.inj hbuild

theorem run_toRaw {c : Config} {i : Instr} (h : i.wellFormed c = true) : run c i.toRaw = .ok (encode c i) := by
  rw [run, construct_toRaw h]

/-- The request of a descriptor that is not validated is refused (R29). -/
theorem exists_run_toRaw_error {c : Config} {i : Instr} (h : ¬ i.wellFormed c = true) :
    ∃ e, run c i.toRaw = .error e := by
  cases hrun : run c i.toRaw with
  | error e => exact ⟨e, rfl⟩
  | ok w =>
    obtain ⟨j, hwf, hraw, -⟩ := exists_instr_of_run_ok hrun
    exact absurd (toRaw_injective hraw ▸ hwf) h

end Sys2Proof.Machine

/-! # The control extension (43_control_ext.md): the obligations -/

namespace Sys2Proof.Machine

/-- Settles O26: the request is that of `jsr v`, validated exactly in the range in force; the 9-bit range lies in the
11-bit one, and on each range sign extension undoes the packing at its width. -/
theorem jsrOffsetReadsTheSameBothWays : Obligations.JsrOffsetReadsTheSameBothWays := by
  intro c v hgk
  have admitted (h : inS c.jsrRange.bits v) : run c (Instr.jsr v).toRaw = .ok (encode c (.jsr v)) :=
    run_toRaw ((wellFormed_jsr_iff hgk).2 h)
  have refused (h : ¬ inS c.jsrRange.bits v) : ∃ e, run c (Instr.jsr v).toRaw = .error e :=
    exists_run_toRaw_error (mt (wellFormed_jsr_iff hgk).1 h)
  have recovered (h : inS 11 v) : sext 11 (field (encode c (.jsr v)) 10 0) = v := by
    rw [field_encode_jsr_offset, sext_mask (by decide) h]
  refine ⟨fun hlo hhi => ?_, fun hrange hlo hhi => ?_, fun hrange hout => ?_, fun hrange hout => ?_⟩
  · have hnine : inS 9 v := ⟨hlo, hhi⟩
    have heleven : inS 11 v := by simp only [inS] at hnine ⊢; omega
    have hadmitted : inS c.jsrRange.bits v := by cases c.jsrRange <;> assumption
    refine ⟨_, admitted hadmitted, ?_, recovered heleven, ?_⟩
    · exact field_encode_jsr_offset c v
    · rw [field_encode_jsr_offset_low, sext_mask (by decide) hnine]
  · have heleven : inS 11 v := ⟨hlo, hhi⟩
    exact ⟨_, admitted (by rwa [hrange]), recovered heleven⟩
  · exact refused (by simp only [hrange, JsrRange.bits, inS]; omega)
  · exact refused (by simp only [hrange, JsrRange.bits, inS]; omega)

end Sys2Proof.Machine

/-! # The violations that apply and their causes (60_exceptions.md)

SUPPORT. Each check of construction inverted once: when it finds a violation, and which. From there the members of
`V(raw)` are the causes of R211's table. -/

namespace Sys2Proof.Machine

theorem unexpectedAt_eq_some_iff {t : VariantTag} {r : RawDescriptor} {f : FieldName} {e : InvalidOperand} :
    unexpectedAt t r f = some e ↔
      f ∉ slotFields t ∧ ∃ v, r.get f = some v ∧ ⟨.UnexpectedField, [f], some v⟩ = e := by
  cases hget : r.get f <;> simp [unexpectedAt, hget]

theorem presenceAt_single_eq_some_iff {r : RawDescriptor} {f : FieldName} {e : InvalidOperand} :
    presenceAt r (.single f) = some e ↔ r.get f = none ∧ ⟨.MissingField, [f], none⟩ = e := by
  cases hget : r.get f <;> simp [presenceAt, hget]

theorem presenceAt_pair_eq_some_iff {r : RawDescriptor} {a b : FieldName} {e : InvalidOperand} :
    presenceAt r (.pair a b) = some e ↔
      (r.get a).isSome = true ∧ (r.get b).isSome = true ∧ ⟨.BothExclusivePresent, [a, b], none⟩ = e ∨
      r.get a = none ∧ r.get b = none ∧ ⟨.NeitherExclusivePresent, [a, b], none⟩ = e := by
  cases ha : r.get a <;> cases hb : r.get b <;> simp [presenceAt, ha, hb]

/-- The kind of a range violation is that of its field (R204, R205). -/
def rangeKind (f : FieldName) : ConstraintKind :=
  if f.isRegister then .RegisterOutOfRange else .ImmediateOutOfRange

theorem rangeAt_eq_some_iff {c : Config} {t : VariantTag} {r : RawDescriptor} {f : FieldName} {e : InvalidOperand} :
    rangeAt c t r f = some e ↔
      ∃ v, r.get f = some (.int v) ∧ inFieldRange c t v f = false ∧ ⟨rangeKind f, [f], some (.int v)⟩ = e := by
  unfold rangeAt rangeKind
  split
  · next v hv => split_ifs with hin hreg <;> simp [hv, hin]
  all_goals next hv => simp [hv]

theorem pair_mem_slots_iff {t : VariantTag} :
    .pair .sr2 .imm5 ∈ slots t ↔ t = .ADD ∨ t = .AND ∨ t = .XOR := by
  cases t <;> decide

theorem inFieldRange_register_eq_false_iff {c : Config} {t : VariantTag} {v : Int} {f : FieldName}
    (hf : f.isRegister = true) : inFieldRange c t v f = false ↔ v < 0 ∨ 7 < v := by
  rw [inFieldRange_of_isRegister hf, decide_eq_false_iff_not]
  omega

/-- The stated numbers of R205 are the range that construction checks. -/
theorem inFieldRange_of_statedRange {c : Config} {t : VariantTag} {f : FieldName} {lo hi : Int}
    (h : statedRange c t f = some (lo, hi)) (v : Int) :
    inFieldRange c t v f = decide (lo ≤ v ∧ v ≤ hi) := by
  cases f with
  | imm5 | offset6 | boffset6 =>
    cases h
    rfl
  | amount4 | trapvect8 =>
    cases hrule : c.unsignedFields <;> simp [statedRange, hrule] at h <;> obtain ⟨rfl, rfl⟩ := h <;>
      simp [inFieldRange, hrule]
  | pc_offset =>
    cases t with
    | JSR =>
      cases hbits : c.jsrRange <;> simp [statedRange, hbits] at h <;> obtain ⟨rfl, rfl⟩ := h <;>
        simp [inFieldRange, hbits, JsrRange.bits]
    | _ =>
      cases h
      rfl
  | _ => cases h

theorem exists_statedRange {f : FieldName} (hf : f.isNumeric = true) (c : Config) (t : VariantTag) :
    ∃ lo hi, statedRange c t f = some (lo, hi) := by
  cases f with
  | imm5 | offset6 | boffset6 => exact ⟨_, _, rfl⟩
  | pc_offset | amount4 | trapvect8 => rw [statedRange]; split_ifs <;> exact ⟨_, _, rfl⟩
  | _ => cases hf

theorem isNumeric_of_statedRange {c : Config} {t : VariantTag} {f : FieldName} {lo hi : Int}
    (h : statedRange c t f = some (lo, hi)) : f.isNumeric = true := by
  cases f with
  | imm5 | pc_offset | offset6 | boffset6 | amount4 | trapvect8 => rfl
  | _ => cases h

theorem isRegister_eq_false_of_isNumeric {f : FieldName} (h : f.isNumeric = true) : f.isRegister = false := by
  cases f with
  | imm5 | pc_offset | offset6 | boffset6 | amount4 | trapvect8 => rfl
  | _ => cases h

theorem mem_variants_of_numeric_slotField {t : VariantTag} {f : FieldName} (hf : f ∈ slotFields t)
    (hnum : f.isNumeric = true) :
    t ∈ [VariantTag.ADD, .AND, .XOR, .BR, .LEA, .LDW, .STW, .LDB, .STB, .SHF, .JSR, .TRAP] := by
  have carries : ∀ f ∈ slotFields t, f.isNumeric = true →
      t ∈ [VariantTag.ADD, .AND, .XOR, .BR, .LEA, .LDW, .STW, .LDB, .STB, .SHF, .JSR, .TRAP] := by
    cases t <;> decide
  exact carries f hf hnum

/-! ## A tag that is not admitted (R202) -/

/-- R202 applies: the tag is none of the 16, or one that is not admitted under the configuration. -/
def RefusesTag (c : Config) (r : RawDescriptor) : Prop := ∀ t, r.tag = .admitted t → tagAdmitted c t = false

theorem refusesTag_or_admitted (c : Config) (r : RawDescriptor) :
    RefusesTag c r ∨ ∃ t, r.tag = .admitted t ∧ tagAdmitted c t = true := by
  simp only [RefusesTag, or_iff_not_imp_right, not_exists, not_and, Bool.not_eq_true, imp_self]

theorem refusesTag_iff {c : Config} {r : RawDescriptor} : RefusesTag c r ↔
    (∃ k, r.tag = .other k) ∨
      (c.gkLayouts = .off ∧ ∃ t, r.tag = .admitted t ∧ t ∉ [VariantTag.ADD, .AND, .BR, .JMP]) := by
  have hoff : c.gkLayouts = .off ↔ c.gkLayouts ≠ .on := by cases c.gkLayouts <;> decide
  cases htag : r.tag with
  | other k => simp [RefusesTag, htag]
  | admitted t =>
    simp only [RefusesTag, htag, Tag.admitted.injEq, forall_eq', ← Bool.not_eq_true, tagAdmitted_iff, not_or, hoff,
      reduceCtorEq, exists_const, false_or, exists_eq_left', and_comm]

theorem violations_of_refusesTag {c : Config} {r : RawDescriptor} (h : RefusesTag c r) :
    violations c r = [unknownVariant r.tag] := by
  cases htag : r.tag with
  | other k => exact violations_of_other htag
  | admitted t => exact violations_of_not_admitted htag (h t htag)

theorem construct_of_refusesTag {c : Config} {r : RawDescriptor} (h : RefusesTag c r) :
    construct c r = .error (unknownVariant r.tag) := by
  rw [construct_of_violation (violations_of_refusesTag h), selectViolation_single]

/-! ## The causes of R211's table, and `V(raw)` -/

theorem errorCause_unknownVariant {c : Config} {r : RawDescriptor} (h : RefusesTag c r) :
    ErrorCause c r (unknownVariant r.tag) :=
  ⟨refusesTag_iff.1 h, rfl, rfl⟩

theorem errorCause_of_presenceAt {c : Config} {r : RawDescriptor} {t : VariantTag} {sl : Slot} {e : InvalidOperand}
    (htag : r.tag = .admitted t) (hsl : sl ∈ slots t) (h : presenceAt r sl = some e) : ErrorCause c r e := by
  cases sl with
  | single f =>
    obtain ⟨hget, rfl⟩ := presenceAt_single_eq_some_iff.1 h
    exact ⟨t, f, htag, hsl, hget, rfl, rfl⟩
  | pair a b =>
    obtain ⟨rfl, rfl⟩ := pair_mem_slots hsl
    have hvariant : r.tag = .admitted .ADD ∨ r.tag = .admitted .AND ∨ r.tag = .admitted .XOR := by
      simpa [htag] using pair_mem_slots_iff.1 hsl
    obtain ⟨hsr2, himm5, rfl⟩ | ⟨hsr2, himm5, rfl⟩ := presenceAt_pair_eq_some_iff.1 h
    · exact ⟨hvariant, by simpa [RawDescriptor.get] using hsr2, by simpa [RawDescriptor.get] using himm5, rfl, rfl⟩
    · exact ⟨hvariant, Option.map_eq_none_iff.1 hsr2, Option.map_eq_none_iff.1 himm5, rfl, rfl⟩

theorem errorCause_of_rangeAt {c : Config} {r : RawDescriptor} {t : VariantTag} {f : FieldName} {e : InvalidOperand}
    (htag : r.tag = .admitted t) (hf : f ∈ slotFields t) (h : rangeAt c t r f = some e) : ErrorCause c r e := by
  obtain ⟨v, hget, hrange, rfl⟩ := rangeAt_eq_some_iff.1 h
  cases hreg : f.isRegister with
  | true =>
    rw [rangeKind, if_pos hreg]
    exact ⟨t, f, v, htag, hf, FieldName.isRegister_iff_mem.1 hreg, hget,
      (inFieldRange_register_eq_false_iff hreg).1 hrange, rfl, rfl⟩
  | false =>
    have hnum : f.isNumeric = true := isNumeric_of_out_of_range hrange hreg
    obtain ⟨lo, hi, hstated⟩ := exists_statedRange hnum c t
    rw [inFieldRange_of_statedRange hstated, decide_eq_false_iff_not] at hrange
    rw [rangeKind, hreg]
    exact ⟨t, f, v, lo, hi, htag, mem_variants_of_numeric_slotField hf hnum, hf, hstated, hget, by omega, rfl, rfl⟩

theorem errorCause_of_mem_violations {c : Config} {r : RawDescriptor} {e : InvalidOperand} (h : e ∈ violations c r) :
    ErrorCause c r e := by
  obtain hrefused | ⟨t, htag, hadm⟩ := refusesTag_or_admitted c r
  · rw [violations_of_refusesTag hrefused, List.mem_singleton] at h
    exact h ▸ errorCause_unknownVariant hrefused
  · obtain ⟨f, hf⟩ | ⟨sl, hsl, hpres⟩ | ⟨f, hf, hrange⟩ := (mem_violations_iff htag hadm).1 h
    · obtain ⟨hslot, v, hget, rfl⟩ := unexpectedAt_eq_some_iff.1 hf
      exact ⟨t, f, v, htag, hslot, hget, rfl, rfl⟩
    · exact errorCause_of_presenceAt htag hsl hpres
    · exact errorCause_of_rangeAt htag hf hrange

/-- The cause of R202 is a refused tag, and its record carries that tag. -/
theorem refusesTag_of_errorCause {c : Config} {r : RawDescriptor} {e : InvalidOperand} (h : ErrorCause c r e)
    (hkind : e.kind = .UnknownVariant) : RefusesTag c r ∧ e = unknownVariant r.tag := by
  obtain ⟨kind, fields, value⟩ := e
  cases hkind
  obtain ⟨htag, rfl, rfl⟩ := h
  exact ⟨refusesTag_iff.2 htag, rfl⟩

theorem mem_violations_of_errorCause_of_admitted {c : Config} {r : RawDescriptor} {e : InvalidOperand} {t : VariantTag}
    (htag : r.tag = .admitted t) (hadm : tagAdmitted c t = true) (h : ErrorCause c r e) : e ∈ violations c r := by
  have pair_slot (hvariant : r.tag = .admitted .ADD ∨ r.tag = .admitted .AND ∨ r.tag = .admitted .XOR) :
      .pair .sr2 .imm5 ∈ slots t := pair_mem_slots_iff.2 (by simpa [htag] using hvariant)
  rw [mem_violations_iff htag hadm]
  obtain ⟨kind, fields, value⟩ := e
  cases kind with
  | MissingField =>
    obtain ⟨u, f, hu, hslot, hget, rfl, rfl⟩ := h
    cases htag.symm.trans hu
    exact .inr (.inl ⟨_, hslot, presenceAt_single_of_none hget⟩)
  | BothExclusivePresent =>
    obtain ⟨hvariant, hsr2, himm5, rfl, rfl⟩ := h
    exact .inr (.inl ⟨_, pair_slot hvariant, presenceAt_pair_of_both (by simpa [RawDescriptor.get] using hsr2)
      (by simpa [RawDescriptor.get] using himm5)⟩)
  | NeitherExclusivePresent =>
    obtain ⟨hvariant, hsr2, himm5, rfl, rfl⟩ := h
    exact .inr (.inl ⟨_, pair_slot hvariant, presenceAt_pair_of_neither (by simp [RawDescriptor.get, hsr2])
      (by simp [RawDescriptor.get, himm5])⟩)
  | RegisterOutOfRange =>
    obtain ⟨u, f, v, hu, hf, hreg, hget, hout, rfl, rfl⟩ := h
    cases htag.symm.trans hu
    have hreg : f.isRegister = true := FieldName.isRegister_iff_mem.2 hreg
    have hrange : inFieldRange c t v f = false := (inFieldRange_register_eq_false_iff hreg).2 hout
    exact .inr (.inr ⟨f, hf, rangeAt_eq_some_iff.2 ⟨v, hget, hrange, by rw [rangeKind, if_pos hreg]⟩⟩)
  | ImmediateOutOfRange =>
    obtain ⟨u, f, v, lo, hi, hu, -, hf, hstated, hget, hout, rfl, rfl⟩ := h
    cases htag.symm.trans hu
    have hreg : f.isRegister = false := isRegister_eq_false_of_isNumeric (isNumeric_of_statedRange hstated)
    have hrange : inFieldRange c t v f = false := by
      rw [inFieldRange_of_statedRange hstated, decide_eq_false_iff_not]
      omega
    exact .inr (.inr ⟨f, hf, rangeAt_eq_some_iff.2 ⟨v, hget, hrange, by simp [rangeKind, hreg]⟩⟩)
  | UnexpectedField =>
    obtain ⟨u, f, v, hu, hf, hget, rfl, rfl⟩ := h
    cases htag.symm.trans hu
    exact .inl ⟨f, unexpectedAt_eq_some_iff.2 ⟨hf, v, hget, rfl⟩⟩
  | UnknownVariant =>
    have hrefused : RefusesTag c r := (refusesTag_of_errorCause h rfl).1
    rw [hrefused t htag] at hadm
    cases hadm

/-- Every cause but R202's is one of a tag among the 16. -/
theorem exists_admitted_of_errorCause {c : Config} {r : RawDescriptor} {e : InvalidOperand} (h : ErrorCause c r e)
    (hkind : e.kind ≠ .UnknownVariant) : ∃ t, r.tag = .admitted t := by
  obtain ⟨kind, fields, value⟩ := e
  cases kind with
  | MissingField =>
    obtain ⟨t, -, htag, -⟩ := h
    exact ⟨t, htag⟩
  | RegisterOutOfRange | UnexpectedField =>
    obtain ⟨t, -, -, htag, -⟩ := h
    exact ⟨t, htag⟩
  | ImmediateOutOfRange =>
    obtain ⟨t, -, -, -, -, htag, -⟩ := h
    exact ⟨t, htag⟩
  | BothExclusivePresent | NeitherExclusivePresent =>
    obtain ⟨htag | htag | htag, -⟩ := h <;> exact ⟨_, htag⟩
  | UnknownVariant => exact absurd rfl hkind

/-- `V(raw)` is the causes of R211's table; while the tag is refused, R202's alone. -/
theorem mem_violations_iff_errorCause {c : Config} {r : RawDescriptor} {e : InvalidOperand} :
    e ∈ violations c r ↔ ErrorCause c r e ∧
      (∀ t, r.tag = .admitted t → tagAdmitted c t = false → e.kind = .UnknownVariant) := by
  obtain hrefused | ⟨t, htag, hadm⟩ := refusesTag_or_admitted c r
  · rw [violations_of_refusesTag hrefused, List.mem_singleton]
    constructor
    · rintro rfl
      exact ⟨errorCause_unknownVariant hrefused, fun _ _ _ => rfl⟩
    · rintro ⟨hcause, honly⟩
      by_cases hkind : e.kind = .UnknownVariant
      · exact (refusesTag_of_errorCause hcause hkind).2
      · obtain ⟨t, htag⟩ := exists_admitted_of_errorCause hcause hkind
        exact absurd (honly t htag (hrefused t htag)) hkind
  · constructor
    · intro h
      refine ⟨errorCause_of_mem_violations h, fun u hu hrefused => ?_⟩
      cases htag.symm.trans hu
      rw [hadm] at hrefused
      cases hrefused
    · exact fun h => mem_violations_of_errorCause_of_admitted htag hadm h.1

end Sys2Proof.Machine

/-! # Construction as the algorithm of R206

SUPPORT. The phases of R206 stop at the first violation they meet, which is the first of the list `V(raw)` in R206's
order. -/

namespace Sys2Proof.Machine

/-- Raise the first of a list of violations, if there is one. -/
def raiseFirst : List InvalidOperand → Except InvalidOperand Unit
  | [] => .ok ()
  | e :: _ => .error e

theorem raiseFirst_append (es fs : List InvalidOperand) :
    raiseFirst (es ++ fs) = (raiseFirst es >>= fun _ => raiseFirst fs) := by
  cases es <;> rfl

theorem checkEach_eq_raiseFirst {α : Type} (check : α → Option InvalidOperand) (xs : List α) :
    checkEach check xs = raiseFirst (xs.filterMap check) := by
  induction xs with
  | nil => rfl
  | cons x xs ih => cases h : check x <;> simp [checkEach, h, ih, raiseFirst]

theorem rangePhase_eq_raiseFirst (c : Config) (t : VariantTag) (r : RawDescriptor) (ss : List Slot) :
    rangePhase c t r ss = raiseFirst ((ss.flatMap Slot.fields).filterMap (rangeAt c t r)) := by
  induction ss with
  | nil => rfl
  | cons s ss ih =>
    rw [rangePhase, slotRangeCheck, checkEach_eq_raiseFirst, ih, List.flatMap_cons, List.filterMap_append,
      raiseFirst_append]

theorem constructInOrder_of_refusesTag {c : Config} {r : RawDescriptor} (h : RefusesTag c r) :
    constructInOrder c r = .error (unknownVariant r.tag) := by
  unfold constructInOrder
  cases htag : r.tag with
  | other k => rfl
  | admitted t => simp [h t htag]

theorem constructInOrder_of_admitted {c : Config} {r : RawDescriptor} {t : VariantTag} (htag : r.tag = .admitted t)
    (hadm : tagAdmitted c t = true) :
    constructInOrder c r = (raiseFirst (violations c r) >>= fun _ => buildRequest r) := by
  simp only [constructInOrder, buildRequest, htag, hadm, if_true, checkEach_eq_raiseFirst, rangePhase_eq_raiseFirst,
    violations_of_admitted htag hadm, raiseFirst_append, slotFields, bind_assoc]

theorem construct_eq_raiseFirst {c : Config} (h : c.errorSelect = .specOrder) (r : RawDescriptor) :
    construct c r = (raiseFirst (violations c r) >>= fun _ => buildRequest r) := by
  cases hv : violations c r with
  | nil => exact construct_of_no_violation hv
  | cons e es =>
    rw [construct_of_violation hv, selectViolation_specOrder h]
    rfl

end Sys2Proof.Machine

/-! # A value in a field of no slot

SUPPORT. Putting a value in a field leaves the tag and the other fields as they were (R200), so only the check of
unexpected fields can fail (R203). -/

namespace Sys2Proof

theorem RawDescriptor.set_int (r : RawDescriptor) (f : FieldName) (v : Int) : r.set f (.int v) = r.setInt f v := by
  cases f <;> rfl

@[simp] theorem RawDescriptor.set_tag (r : RawDescriptor) (f : FieldName) (x : Value) : (r.set f x).tag = r.tag := by
  cases x with
  | int v => rw [RawDescriptor.set_int, RawDescriptor.setInt_tag]
  | bool b => cases f <;> rfl
  | shift s => cases f <;> rfl
  | tag t => cases f <;> rfl

theorem RawDescriptor.get_set_of_ne {f g : FieldName} (h : g ≠ f) (r : RawDescriptor) (x : Value) :
    (r.set f x).get g = r.get g := by
  cases x with
  | int v => rw [RawDescriptor.set_int, RawDescriptor.get_setInt_of_ne h]
  | bool b =>
    cases f with
    | n | z | p => cases g <;> trivial
    | _ => rfl
  | shift s =>
    cases f with
    | shift_type => cases g <;> trivial
    | _ => rfl
  | tag t => cases f <;> rfl

end Sys2Proof

namespace Sys2Proof.Machine

/-- A value in a field of no slot is the one violation, and it is reported (R203). -/
theorem construct_set_unexpected {c : Config} {i : Instr} {f : FieldName} {x : Value} (hwf : i.wellFormed c = true)
    (hf : f ∉ slotFields i.variant) (hx : (i.toRaw.set f x).get f = some x) :
    construct c (i.toRaw.set f x) = .error ⟨.UnexpectedField, [f], some x⟩ := by
  have noSlot : ∀ sl ∈ slots i.variant, f ∉ sl.fields :=
    fun sl hsl hmem => hf (List.mem_flatMap.2 ⟨sl, hsl, hmem⟩)
  refine construct_of_only_violation fun e => ?_
  rw [mem_violations_iff_of_edited hwf (RawDescriptor.set_tag _ _ _) fun g hg => RawDescriptor.get_set_of_ne hg _ x,
    unexpectedAt_eq_some_iff]
  simp +contextual [hf, hx, noSlot, eq_comm]

/-! # Exceptions (60_exceptions.md): the obligations -/

/-- Settles O7, one form at a time (`exec_eq_respond_encode`): the pseudocode of each rule combines what its row of the
table combines. -/
theorem execAnswersTheTableWord : Obligations.ExecAnswersTheTableWord :=
  exec_eq_respond_encode

/-- Settles O37: `V(raw)` is the causes of the table, and every error reported is a member. -/
theorem errorRecordsFollowTheTable : Obligations.ErrorRecordsFollowTheTable :=
  ⟨fun _ _ _ h => errorCause_of_mem_violations (mem_violations_of_construct_error h),
    fun _ _ _ => mem_violations_iff_errorCause, rfl, rfl, rfl, rfl, rfl, rfl, rfl⟩

/-- Settles O27: exactly the requests of validated descriptors violate nothing, `ERROR_SELECT` picks a member, and a cause
of R202 leaves no other violation. -/
theorem constructionFollowsTheViolations : Obligations.ConstructionFollowsTheViolations := by
  intro c r
  refine ⟨?_, fun i hi => ?_, fun e es hv => ?_, fun e hkind he => ?_⟩
  · simp only [construct_ok_iff, violations_eq_nil_iff]
  · obtain ⟨hwf, rfl⟩ := construct_ok_iff.1 hi
    exact ⟨hwf, rfl, fun j _ hj => toRaw_injective hj⟩
  · exact ⟨construct_of_violation hv, hv ▸ selectViolation_mem c e es, fun h => selectViolation_specOrder h e es⟩
  · obtain ⟨hrefused, rfl⟩ := refusesTag_of_errorCause (errorCause_of_mem_violations he) hkind
    exact violations_of_refusesTag hrefused

/-- Settles O29: both raise the first of `V(raw)` and, where there is none, build the descriptor. -/
theorem defaultConstructionIsTheAlgorithm : Obligations.DefaultConstructionIsTheAlgorithm := by
  intro c r hselect
  obtain hrefused | ⟨t, htag, hadm⟩ := refusesTag_or_admitted c r
  · rw [construct_of_refusesTag hrefused, constructInOrder_of_refusesTag hrefused]
  · rw [construct_eq_raiseFirst hselect, constructInOrder_of_admitted htag hadm]

/-- Settles O34: the stated range is the one checked, and the value put in the field is all that can be wrong. -/
theorem numericRangeIsChecked : Obligations.NumericRangeIsChecked := by
  intro c i f lo hi v hwf hpresent hstated
  have hnum : f.isNumeric = true := isNumeric_of_statedRange hstated
  have hrange := inFieldRange_of_statedRange hstated v
  refine ⟨fun hv => exists_construct_setInt_ok hwf (.inr hnum) hpresent (hrange.trans (decide_eq_true hv)),
    fun hv => construct_setInt_error hwf (.inr hnum) hpresent (rangeAt_eq_some_iff.2 ?_)⟩
  have hout : inFieldRange c i.variant v f = false := hrange.trans (decide_eq_false (by omega))
  exact ⟨v, RawDescriptor.get_setInt_self (.inr hnum) _ v, hout,
    by simp [rangeKind, isRegister_eq_false_of_isNumeric hnum]⟩

/-- Settles O35: the edited field is all that can be wrong with the request. -/
theorem fieldSetIsExact : Obligations.FieldSetIsExact :=
  fun _ _ _ hwf => ⟨construct_clear_single hwf, fun _ => construct_set_unexpected hwf⟩

/-- The codes are those of R211's seven kinds. -/
theorem kindCode_mem_range (k : ConstraintKind) : 1 ≤ kindCode k ∧ kindCode k ≤ 7 := by
  cases k <;> decide

/-- Settles O44: a step on a waiting request answers what `run` gives it, a word or an error record. -/
theorem everyRequestGetsOneResponse : Obligations.EveryRequestGetsOneResponse := by
  refine ⟨fun s => ?_, fun s t r rest hr hstep => ?_⟩
  · obtain ⟨t, ht, -⟩ := exists_step_config s
    exact ⟨t, ht⟩
  · rw [step_of_request hr] at hstep
    cases hstep
    refine ⟨rfl, Response.ofResult (run s.config r), rfl, ?_⟩
    cases run s.config r with
    | ok w => exact .inl ⟨w, rfl, rfl, rfl, rfl, rfl⟩
    | error e =>
      obtain ⟨hlo, hhi⟩ := kindCode_mem_range e.kind
      exact .inr ⟨kindCode e.kind, e.fields, rfl, rfl, rfl, hlo, hhi, rfl⟩

/-- Settles O30: neither tag is admitted, and then R202's violation is the only one. -/
theorem unknownVariantIsRefused : Obligations.UnknownVariantIsRefused := by
  have notCore : ∀ t ∈ [VariantTag.NOT, .XOR, .SHF, .LEA, .LDW, .STW, .LDB, .STB, .JSR, .JSRR, .TRAP, .RTI],
      t ∉ [VariantTag.ADD, .AND, .BR, .JMP] := by decide
  intro c r h
  refine construct_of_refusesTag (refusesTag_iff.2 (h.imp_right ?_))
  rintro ⟨hoff, t, ht, htag⟩
  exact ⟨hoff, t, htag, notCore t ht⟩

/-- Settles O40: the equation of `step` for a request that is refused. -/
theorem refusalOnlyAnswersTheError : Obligations.RefusalOnlyAnswersTheError :=
  fun _ _ _ _ hr he => ⟨step_of_construct_error hr he, rfl⟩

end Sys2Proof.Machine

/-! # The state at reset, and the ports between steps

SUPPORT. The invariant outside of steps, and the steps of a block with no request presented (log entry 2). -/

namespace Sys2Proof.Machine

theorem inv_reset : State.reset.inv = true :=
  inv_iff.2 ⟨rfl, by simp, by simp⟩

/-- A request that fits the buses joins the queue; any other leaves the state as it was. -/
theorem inv_present {s : State} (hinv : s.inv = true) (r : RawDescriptor) : (s.present r).inv = true := by
  cases hr : r.fits s.config with
  | false => rwa [State.present_of_not_fits hr]
  | true =>
    obtain ⟨hwf, hfits, hlegal⟩ := inv_iff.1 hinv
    rw [inv_iff, State.present_config, State.present_responses, State.present_requests_of_fits hr]
    refine ⟨hwf, fun q hq => ?_, hlegal⟩
    obtain hq | hq := List.mem_append.1 hq
    · exact hfits q hq
    · rwa [List.mem_singleton.1 hq]

theorem run_of_no_request {s : State} (hr : s.requests = []) (n : Nat) : Host.Core.run core n s = .next s := by
  induction n with
  | zero => rfl
  | succ n ih => rw [run_succ_of_step (M := core) (step_of_no_request hr), ih]

/-! # Reset and hazards (70_reset_and_hazards.md): the obligations -/

/-- Settles O47: at reset nothing waits and nothing has been answered, and a request that joins the queue fits the buses. -/
theorem invariantHoldsAtResetAndPresent : Obligations.InvariantHoldsAtResetAndPresent :=
  ⟨inv_reset, fun _ r hinv => inv_present hinv r⟩

/-- Settles O49: with no request every step idles, and the response to a request is that of `run`, whatever was served
before it. -/
theorem resetHoldsNothing : Obligations.ResetHoldsNothing := by
  refine ⟨rfl, rfl, rfl, run_of_no_request rfl, fun r earlier => ?_⟩
  have hfirst := run_queue (rs := [r]) (s := { State.reset with requests := [r] }) rfl
  obtain ⟨t, ht, hlast⟩ := run_up_to_request (before := earlier) (after := [])
    (s := { State.reset with requests := earlier ++ [r] }) rfl
  exact ⟨_, t, hfirst, ht, by simp [hlast, State.afterServing], rfl⟩

end Sys2Proof.Machine

/-! # The producible words decode

SUPPORT. What is read from a field lies in the range of its operand, so the word of an assigned opcode with the fixed bits of
R74 and R75 reads as a descriptor in range, but for JSR, whose 11-bit field can hold more than R161 admits. -/

namespace Sys2Proof

theorem inReg_readReg (w : Word16) (lo : Nat) : inReg (readReg w lo) := by
  have hlt : field w (lo + 2) lo < 8 := by simpa [Nat.add_sub_cancel_left] using field_lt w (lo + 2) lo
  simp only [readReg, zext]
  omega

theorem inS_readSigned (w : Word16) {N : Nat} (hN : 0 < N) : inS N (readSigned w N) :=
  inS_sext hN (by simpa [Nat.sub_add_cancel hN] using field_lt w (N - 1) 0)

theorem inUnsignedField_readUnsigned (c : Config) (w : Word16) {N : Nat} (hN : 0 < N) :
    inUnsignedField c.unsignedFields N (readUnsigned c w N) := by
  have hlt : field w (N - 1) 0 < 2 ^ N := by simpa [Nat.sub_add_cancel hN] using field_lt w (N - 1) 0
  cases hrule : c.unsignedFields with
  | unsigned =>
    refine .inl ⟨rfl, ?_⟩
    simp only [readUnsigned, hrule, zext, inU]
    omega
  | signed =>
    refine .inr ⟨rfl, ?_⟩
    simp only [readUnsigned, hrule]
    exact inS_sext hN hlt

/-- JSR's offset lies in the range in force (R161): any at 11 bits, and at 9 bits one whose bits [10:8] are copies of its
sign. -/
def JsrOffsetAdmitted (c : Config) (w : Word16) : Prop :=
  c.jsrRange = .eleven ∨ field w 10 8 = 0 ∨ field w 10 8 = 7

theorem inS_readSigned_jsr {c : Config} {w : Word16} (h : JsrOffsetAdmitted c w) :
    inS c.jsrRange.bits (readSigned w 11) := by
  cases hrange : c.jsrRange with
  | eleven => exact inS_readSigned w (by decide)
  | nine =>
    have hsign : field w 10 8 = 0 ∨ field w 10 8 = 7 := h.resolve_left (by simp [hrange])
    simp only [field, Nat.shiftRight_eq_div_pow] at hsign
    simp only [JsrRange.bits, inS, readSigned, sext, field, Nat.shiftRight_eq_div_pow]
    split_ifs <;> omega

theorem operandsInRange_readAs {c : Config} {w : Word16} {f : Form} (h : f = .JSR → JsrOffsetAdmitted c w) :
    (readAs c w f).operandsInRange c = true := by
  have hreg (lo : Nat) := decide_eq_true (inReg_readReg w lo)
  have hsigned {N : Nat} (hN : 0 < N) := decide_eq_true (inS_readSigned w hN)
  have hunsigned {N : Nat} (hN : 0 < N) := decide_eq_true (inUnsignedField_readUnsigned c w hN)
  cases f with
  | BR => exact hsigned (by decide)
  | JSR => exact decide_eq_true (inS_readSigned_jsr (h rfl))
  | RTI => rfl
  | _ => simp only [readAs, readMem, Instr.operandsInRange, hreg, hsigned, hunsigned, Nat.ofNat_pos, Bool.and_self]

/-- A descriptor read from a word is validated when its tag is admitted and, for JSR, its offset is. -/
theorem wellFormed_of_readForm {c : Config} {w : Word16} {i : Instr} (h : readForm c w = .ok i)
    (hadm : tagAdmitted c i.variant = true) (hjsr : i.variant = .JSR → JsrOffsetAdmitted c w) :
    i.wellFormed c = true := by
  obtain ⟨f, rfl, -⟩ := readForm_ok h
  refine wellFormed_iff.2 ⟨hadm, operandsInRange_readAs fun hf => hjsr ?_⟩
  rw [hf]
  rfl

/-- A reading of the word that succeeds, with an admitted tag and, for JSR, an admitted offset. -/
def ReadsAdmitted (c : Config) (w : Word16) (reading : Except DecodeError Instr) : Prop :=
  ∃ i, reading = .ok i ∧ tagAdmitted c i.variant = true ∧ (i.variant = .JSR → JsrOffsetAdmitted c w)

theorem readsAdmitted_readOperate {c : Config} {w : Word16} {t : VariantTag} {reg imm : Int → Int → Int → Instr}
    (hshape : operateShape w = true) (hadm : tagAdmitted c t = true) (ht : t ≠ .JSR)
    (hreg : ∀ dr sr1 sr2, (reg dr sr1 sr2).variant = t) (himm : ∀ dr sr1 imm5, (imm dr sr1 imm5).variant = t) :
    ReadsAdmitted c w (readOperate t reg imm w) := by
  by_cases hmode : field w 5 5 = 1
  · exact ⟨_, readOperate_of_imm hmode, by rwa [himm], fun h => absurd ((himm ..).symm.trans h) ht⟩
  · have hzero : field w 4 3 = 0 := by simpa [operateShape, hmode] using hshape
    exact ⟨_, readOperate_of_reg ⟨field_bit_eq_zero hmode, hzero⟩, by rwa [hreg],
      fun h => absurd ((hreg ..).symm.trans h) ht⟩

theorem readsAdmitted_readAnd {c : Config} {w : Word16} (h : operateShape w = true) :
    ReadsAdmitted c w (readOperate .AND .andReg .andImm w) :=
  readsAdmitted_readOperate h rfl (by decide) (fun _ _ _ => rfl) (fun _ _ _ => rfl)

/-- Where STB is not admitted, the word must be one of AND's (R12, R73). -/
theorem readsAdmitted_readOpcode3 {c : Config} {w : Word16}
    (h : tagAdmitted c .STB = true ∨ c.andOpcode = .sourceTable ∧ operateShape w = true) :
    ReadsAdmitted c w (readOpcode3 c w) := by
  unfold readOpcode3
  split
  · next hand => exact ⟨_, rfl, h.resolve_right (by simp [hand]), nofun⟩
  · split
    · next i hi =>
      obtain ⟨-, rfl⟩ | ⟨-, rfl⟩ := readOperate_ok rfl hi <;> exact ⟨_, rfl, rfl, nofun⟩
    · next e he =>
      refine ⟨_, rfl, h.resolve_right fun ⟨_, hshape⟩ => ?_, nofun⟩
      obtain ⟨i, hi, -⟩ := readsAdmitted_readAnd (c := c) hshape
      cases he.symm.trans hi

theorem readsAdmitted_readXor {c : Config} {w : Word16} (hadm : tagAdmitted c .XOR = true)
    (hshape : operateShape w = true) : ReadsAdmitted c w (readXor w) := by
  unfold readXor
  split
  · exact ⟨_, rfl, hadm, nofun⟩
  · exact readsAdmitted_readOperate hshape hadm (by decide) (fun _ _ _ => rfl) (fun _ _ _ => rfl)

theorem readsAdmitted_readJsr {c : Config} {w : Word16} (hadm : tagAdmitted c .JSR = true)
    (hjsr : field w 11 11 = 1 → JsrOffsetAdmitted c w)
    (hjsrr : field w 11 11 ≠ 1 → field w 10 9 = 0 ∧ field w 5 0 = 0) : ReadsAdmitted c w (readJsr w) := by
  by_cases hbit : field w 11 11 = 1
  · exact ⟨_, if_pos (readBit_iff.2 hbit), hadm, fun _ => hjsr hbit⟩
  · exact ⟨_, (if_neg (mt readBit_iff.1 hbit)).trans (if_pos (hjsrr hbit)), hadm, nofun⟩

theorem readsAdmitted_readShf {c : Config} {w : Word16} (hadm : tagAdmitted c .SHF = true) (hkind : field w 5 4 ≠ 2) :
    ReadsAdmitted c w (readShf c w) := by
  have hlt : field w 5 4 < 4 := field_lt w 5 4
  obtain h | h | h : field w 5 4 = 0 ∨ field w 5 4 = 1 ∨ field w 5 4 = 3 := by omega
  all_goals
    rw [readShf, h]
    exact ⟨_, rfl, hadm, nofun⟩

/-- R75 leaves the words that the opcode map of R72 reads, opcode by opcode. -/
theorem readsAdmitted_readForm {c : Config} {w : Word16} (h : producible c w = true) :
    ReadsAdmitted c w (readForm c w) := by
  unfold producible at h
  split at h
  · next hop =>
    rw [readForm, hop]
    exact ⟨_, rfl, rfl, nofun⟩
  · next hop =>
    rw [readForm, hop]
    exact readsAdmitted_readOperate h rfl (by decide) (fun _ _ _ => rfl) (fun _ _ _ => rfl)
  · next hop =>
    rw [readForm, hop]
    exact ⟨_, rfl, h, nofun⟩
  · next hop =>
    rw [readForm, hop]
    exact readsAdmitted_readOpcode3 (by simpa [tagAdmitted] using h)
  · next hop =>
    rw [readForm, hop]
    obtain ⟨hadm, hfixed⟩ := Bool.and_eq_true_iff.1 h
    refine readsAdmitted_readJsr hadm (fun hbit => ?_) (fun hbit => by simpa [hbit] using hfixed)
    simpa [JsrOffsetAdmitted, hbit, or_assoc] using hfixed
  · next hop =>
    obtain ⟨hand, hshape⟩ := Bool.and_eq_true_iff.1 h
    rw [readForm, hop, of_decide_eq_true hand]
    exact readsAdmitted_readAnd hshape
  · next hop =>
    rw [readForm, hop]
    exact ⟨_, rfl, h, nofun⟩
  · next hop =>
    rw [readForm, hop]
    exact ⟨_, rfl, h, nofun⟩
  · next hop =>
    rw [readForm, hop]
    obtain ⟨hadm, hzero⟩ := Bool.and_eq_true_iff.1 h
    exact ⟨_, if_pos (beq_iff_eq.1 hzero), hadm, nofun⟩
  · next hop =>
    rw [readForm, hop]
    obtain ⟨hadm, hshape⟩ := Bool.and_eq_true_iff.1 h
    exact readsAdmitted_readXor hadm hshape
  · next hop =>
    rw [readForm, hop]
    exact ⟨_, if_pos (by simpa using h), rfl, nofun⟩
  · next hop =>
    rw [readForm, hop]
    obtain ⟨hadm, hkind⟩ := Bool.and_eq_true_iff.1 h
    exact readsAdmitted_readShf hadm (by simpa using hkind)
  · next hop =>
    rw [readForm, hop]
    exact ⟨_, rfl, h, nofun⟩
  · next hop =>
    rw [readForm, hop]
    obtain ⟨hadm, hzero⟩ := Bool.and_eq_true_iff.1 h
    exact ⟨_, if_pos (beq_iff_eq.1 hzero), hadm, nofun⟩
  · cases h

theorem exists_decode_of_producible {c : Config} {w : Word16} (h : producible c w = true) :
    ∃ i, decode c w = .ok i := by
  obtain ⟨i, hread, hadm, hjsr⟩ := readsAdmitted_readForm h
  exact ⟨i, decode_ok_iff.2 ⟨hread, wellFormed_of_readForm hread hadm hjsr⟩⟩

end Sys2Proof

/-! # The decoder and the image of the encoder: the obligations -/

namespace Sys2Proof.Machine

/-- Settles O3: the decoder checks what it reads, and every field of the form it picks is put back where it was read. -/
theorem encodeOfDecodeIsTheWord : Obligations.EncodeOfDecodeIsTheWord :=
  fun _ _ _ h => ⟨wellFormed_of_decode h, encode_of_decode h⟩

/-- Settles O8: a producible word decodes, and it is the word of the descriptor read from it. -/
theorem imageOfEncodeIsProducible : Obligations.ImageOfEncodeIsProducible := by
  intro c w
  constructor
  · rintro ⟨i, hwf, rfl⟩
    exact producible_encode hwf
  · intro h
    obtain ⟨i, hdecode⟩ := exists_decode_of_producible h
    exact ⟨i, wellFormed_of_decode hdecode, encode_of_decode hdecode⟩

end Sys2Proof.Machine

/-! # The fields of a form's word, read back (40_core_variants.md to 43_control_ext.md)

SUPPORT. An operand in the range of its own field is what that field of the word reads as, whatever the other operands and
whichever tags are admitted. -/

namespace Sys2Proof

section OperandInRange
variable {c : Config} {i : Instr}

theorem field_encode_register {lo : Nat} (f : FieldName) (hv : inReg (i.operand f))
    (hp : ⟨f, lo + 2, lo⟩ ∈ (row c i.form).fields := by simp [Instr.form, row]) :
    (field (encode c i) (lo + 2) lo : Int) = i.operand f := by
  rw [field_encode hp]
  simpa [Nat.add_sub_cancel_left] using mask_eq_of_inU (N := 3) hv

theorem sext_field_encode {hi : Nat} (f : FieldName) (hv : inS (hi + 1) (i.operand f))
    (hp : ⟨f, hi, 0⟩ ∈ (row c i.form).fields := by simp [Instr.form, row]) :
    sext (hi + 1) (field (encode c i) hi 0) = i.operand f := by
  rw [field_encode hp]
  exact sext_mask (Nat.succ_pos hi) hv

/-- The range rule in force says which extension recovers the operand (R69). -/
theorem ext_field_encode {hi : Nat} (f : FieldName) (hv : inUnsignedField c.unsignedFields (hi + 1) (i.operand f))
    (hp : ⟨f, hi, 0⟩ ∈ (row c i.form).fields := by simp [Instr.form, row]) :
    (c.unsignedFields = .unsigned → (field (encode c i) hi 0 : Int) = i.operand f) ∧
    (c.unsignedFields = .signed → sext (hi + 1) (field (encode c i) hi 0) = i.operand f) := by
  obtain ⟨hrule, hrange⟩ | ⟨hrule, hrange⟩ := hv <;> rw [hrule]
  · refine ⟨fun _ => ?_, nofun⟩
    rw [field_encode hp]
    exact mask_eq_of_inU hrange
  · exact ⟨nofun, fun _ => sext_field_encode f hrange hp⟩

end OperandInRange

/-- Format RR (R71). -/
def FormatRR (w : Word16) (op : Nat) (dr sr1 sr2 : Int) : Prop :=
  field w 15 12 = op ∧ (field w 11 9 : Int) = dr ∧ (field w 8 6 : Int) = sr1 ∧ field w 5 5 = 0 ∧ field w 4 3 = 0 ∧
    (field w 2 0 : Int) = sr2

/-- Format RI (R71). -/
def FormatRI (w : Word16) (op : Nat) (dr sr1 imm5 : Int) : Prop :=
  field w 15 12 = op ∧ (field w 11 9 : Int) = dr ∧ (field w 8 6 : Int) = sr1 ∧ field w 5 5 = 1 ∧
    sext 5 (field w 4 0) = imm5

theorem formatRR_encode (c : Config) {i : Instr} {dr sr1 sr2 : Int}
    (hi : i = .addReg dr sr1 sr2 ∨ i = .andReg dr sr1 sr2 ∨ i = .xorReg dr sr1 sr2) (hdr : inReg dr) (hsr1 : inReg sr1)
    (hsr2 : inReg sr2) : FormatRR (encode c i) (i.form.opcode c) dr sr1 sr2 := by
  obtain ⟨hmode, hzero⟩ := field_encode_regForm c (i := i) (by obtain rfl | rfl | rfl := hi <;> simp [Instr.form])
  obtain rfl | rfl | rfl := hi <;>
    exact ⟨field_encode_opcode c _, field_encode_register .dr hdr, field_encode_register .sr1 hsr1, hmode, hzero,
      field_encode_register .sr2 hsr2⟩

theorem formatRI_encode (c : Config) {i : Instr} {dr sr1 imm5 : Int}
    (hi : i = .addImm dr sr1 imm5 ∨ i = .andImm dr sr1 imm5 ∨ i = .xorImm dr sr1 imm5) (hdr : inReg dr)
    (hsr1 : inReg sr1) (himm5 : inS 5 imm5) : FormatRI (encode c i) (i.form.opcode c) dr sr1 imm5 := by
  have hmode := field_encode_immForm c (i := i) (by obtain rfl | rfl | rfl := hi <;> simp [Instr.form])
  obtain rfl | rfl | rfl := hi <;>
    exact ⟨field_encode_opcode c _, field_encode_register .dr hdr, field_encode_register .sr1 hsr1, hmode,
      sext_field_encode .imm5 himm5⟩

theorem andOpcode_bits_eq (a : AndOpcode) : a.bits = if a = .lc3b then 0b0101 else 0b0011 := by
  cases a <;> rfl

theorem field_encode_br_flags (c : Config) (n z p : Bool) (off : Int) :
    field (encode c (.br n z p off)) 11 11 = bit n ∧ field (encode c (.br n z p off)) 10 10 = bit z ∧
    field (encode c (.br n z p off)) 9 9 = bit p := by
  have flag (f : FieldName) (k : Nat) (b : Bool) (hb : (Instr.br n z p off).operand f = (bit b : Int))
      (hp : ⟨f, k, k⟩ ∈ (row c (Instr.br n z p off).form).fields) : field (encode c (.br n z p off)) k k = bit b := by
    rw [field_encode hp, hb, Nat.sub_self]
    exact mask_zext (bit_lt_two b)
  refine ⟨flag .n 11 n rfl ?_, flag .z 10 z rfl ?_, flag .p 9 p rfl ?_⟩ <;> simp [Instr.form, row]

end Sys2Proof

/-! # The word of each variant: the obligations -/

namespace Sys2Proof.Machine

/-- Settles O9: the two forms are of format RR and RI. -/
theorem addAnswersItsWord : Obligations.AddAnswersItsWord :=
  ⟨fun s _ _ _ hdr hsr1 hsr2 => ⟨_, exec_eq_respond_encode _ s, formatRR_encode _ (.inl rfl) hdr hsr1 hsr2⟩,
    fun s _ _ _ hdr hsr1 hlo hhi =>
      ⟨_, exec_eq_respond_encode _ s, formatRI_encode _ (.inl rfl) hdr hsr1 ⟨hlo, hhi⟩⟩⟩

/-- Settles O10: the two forms are of format RR and RI, under the opcode of the parameter. -/
theorem andAnswersItsWord : Obligations.AndAnswersItsWord := by
  refine ⟨fun s dr sr1 sr2 hdr hsr1 hsr2 => ⟨_, exec_eq_respond_encode _ s, ?_⟩,
    fun s dr sr1 imm5 hdr hsr1 hlo hhi => ⟨_, exec_eq_respond_encode _ s, ?_⟩⟩ <;> rw [← andOpcode_bits_eq]
  · exact formatRR_encode _ (.inr (.inl rfl)) hdr hsr1 hsr2
  · exact formatRI_encode _ (.inr (.inl rfl)) hdr hsr1 ⟨hlo, hhi⟩

/-- Settles O11: each flag is one bit of the word; the source's two examples are the pseudocode evaluated. -/
theorem brAnswersItsWord : Obligations.BrAnswersItsWord := by
  refine ⟨fun s n z p off hlo hhi => ⟨_, exec_eq_respond_encode _ s, field_encode_opcode _ _, ?_⟩,
    fun s => ⟨execBr_eq false false false 0 s, execBr_eq true false false 5 s⟩⟩
  obtain ⟨hn, hz, hp⟩ := field_encode_br_flags s.config n z p off
  exact ⟨hn, hz, hp, sext_field_encode .pc_offset ⟨hlo, hhi⟩⟩

/-- Settles O12: in format BASE only the opcode and the register are not zero. -/
theorem baseRegisterFormsAnswerTheirWord : Obligations.BaseRegisterFormsAnswerTheirWord := by
  intro s b hb
  obtain ⟨hjmpHigh, hjmpLow⟩ := field_encode_jmp s.config b
  obtain ⟨hbit, hjsrrHigh, hjsrrLow⟩ := field_encode_jsrr s.config b
  exact ⟨⟨_, exec_eq_respond_encode _ s, field_encode_opcode _ _, hjmpHigh, field_encode_register .base_r hb, hjmpLow⟩,
    ⟨_, exec_eq_respond_encode _ s, field_encode_opcode _ _, hbit, hjsrrHigh, field_encode_register .base_r hb,
      hjsrrLow⟩⟩

/-- Settles O13: the row of NOT is that of XOR_imm with imm5 all ones. -/
theorem notAnswersItsWord : Obligations.NotAnswersItsWord := by
  intro s dr sr hdr hsr
  have hxor : exec (.xorImm dr sr (-1)) s = .next (s.respond (.ok (encode s.config (.notReg dr sr)))) := by
    rw [exec_eq_respond_encode, encode_notReg]
  exact ⟨_, exec_eq_respond_encode _ s, hxor, field_encode_opcode _ _, field_encode_register .dr hdr,
    field_encode_register .sr hsr, field_encode_notReg s.config dr sr⟩

/-- Settles O14: the two forms are of format RR and RI. -/
theorem xorAnswersItsWord : Obligations.XorAnswersItsWord :=
  ⟨fun s _ _ _ hdr hsr1 hsr2 => ⟨_, exec_eq_respond_encode _ s, formatRR_encode _ (.inr (.inr rfl)) hdr hsr1 hsr2⟩,
    fun s _ _ _ hdr hsr1 hlo hhi =>
      ⟨_, exec_eq_respond_encode _ s, formatRI_encode _ (.inr (.inr rfl)) hdr hsr1 ⟨hlo, hhi⟩⟩⟩

/-- Settles O15: the kinds differ in bits [5:4] only, and the amount is read by the range rule in force. -/
theorem shfAnswersItsWord : Obligations.ShfAnswersItsWord := by
  intro s dr sr a hdr hsr ha i ad hi
  refine ⟨_, exec_eq_respond_encode i s, ?_⟩
  have hkind : field (encode s.config i) 5 4 = ad := by
    obtain ⟨rfl, rfl⟩ | ⟨rfl, rfl⟩ | ⟨rfl, rfl⟩ := hi
    · exact field_encode_shfForm s.config dr sr .LSHF a
    · exact field_encode_shfForm s.config dr sr .RSHFL a
    · exact field_encode_shfForm s.config dr sr .RSHFA a
  obtain ⟨rfl, -⟩ | ⟨rfl, -⟩ | ⟨rfl, -⟩ := hi <;>
    exact ⟨field_encode_opcode _ _, field_encode_register .dr hdr, field_encode_register .sr hsr, hkind,
      ext_field_encode .amount4 ha⟩

/-- Settles O16, field by field. -/
theorem leaAnswersItsWord : Obligations.LeaAnswersItsWord :=
  fun s _ _ hdr hlo hhi => ⟨_, exec_eq_respond_encode _ s, field_encode_opcode _ _, field_encode_register .dr hdr,
    sext_field_encode .pc_offset ⟨hlo, hhi⟩⟩

/-- Settles O17: the four rows of format MEM differ in the opcode and in the names of the fields. -/
theorem loadsAndStoresAnswerTheirWord : Obligations.LoadsAndStoresAnswerTheirWord := by
  intro s r b off hr hb hlo hhi i op hi
  refine ⟨_, exec_eq_respond_encode i s, ?_⟩
  have hoff : inS 6 off := ⟨hlo, hhi⟩
  obtain ⟨rfl, rfl⟩ | ⟨rfl, rfl⟩ | ⟨rfl, rfl⟩ | ⟨rfl, rfl⟩ := hi <;> refine ⟨field_encode_opcode _ _, ?_⟩
  · exact ⟨field_encode_register .dr hr, field_encode_register .base_r hb, sext_field_encode .offset6 hoff⟩
  · exact ⟨field_encode_register .sr hr, field_encode_register .base_r hb, sext_field_encode .offset6 hoff⟩
  · exact ⟨field_encode_register .dr hr, field_encode_register .base_r hb, sext_field_encode .boffset6 hoff⟩
  · exact ⟨field_encode_register .sr hr, field_encode_register .base_r hb, sext_field_encode .boffset6 hoff⟩

/-- Settles O18: the 11-bit field holds the offset whatever range R161 admits. -/
theorem jsrAnswersItsWord : Obligations.JsrAnswersItsWord :=
  fun s off hlo hhi => ⟨_, exec_eq_respond_encode _ s, field_encode_opcode _ _, field_encode_jsr s.config off,
    sext_field_encode .pc_offset ⟨hlo, hhi⟩⟩

/-- Settles O19: the vector is read by the range rule in force; RTI's word is its pseudocode evaluated. -/
theorem trapAndRtiAnswerTheirWord : Obligations.TrapAndRtiAnswerTheirWord :=
  ⟨fun s v hv => ⟨_, exec_eq_respond_encode _ s, field_encode_opcode _ _, field_encode_trap s.config v,
    ext_field_encode .trapvect8 hv⟩, execRti_eq⟩

end Sys2Proof.Machine

/-! # The operand buses (92_eei_decisions.md D3)

SUPPORT. Every range of R204 and R205 lies inside the signed 12-bit range, with room for one more value on each side. -/

namespace Sys2Proof

theorem fitsBus_of_inS_twelve {c : Config} {v : Int} (hwf : c.wf = true) (hv : inS 12 v) : fitsBus c v = true := by
  unfold Config.wf at hwf
  unfold fitsBus
  split
  · rfl
  · next width hwidth =>
    have hle : 12 ≤ width := by simpa [hwidth] using hwf
    have hpow : 2 ^ (12 - 1) ≤ 2 ^ (width - 1) := Nat.pow_le_pow_right (by decide) (by omega)
    rw [decide_eq_true_eq]
    simp only [inS] at hv ⊢
    omega

theorem RawDescriptor.fits_iff {c : Config} {r : RawDescriptor} :
    r.fits c = true ↔ ∀ f v, r.get f = some (.int v) → fitsBus c v = true := by
  simp only [RawDescriptor.fits, List.all_eq_true]
  refine ⟨fun h f v hv => ?_, fun h f _ => ?_⟩
  · simpa [hv] using h f (Machine.mem_fieldOrder f)
  · split
    · next v hv => exact h f v hv
    all_goals rfl

theorem RawDescriptor.fits_setInt {c : Config} {r : RawDescriptor} {f : FieldName} {v : Int} (hr : r.fits c = true)
    (hint : f.isRegister = true ∨ f.isNumeric = true) (hv : fitsBus c v = true) : (r.setInt f v).fits c = true := by
  rw [RawDescriptor.fits_iff] at hr ⊢
  intro g u hu
  by_cases hgf : g = f
  · subst hgf
    rw [RawDescriptor.get_setInt_self hint] at hu
    cases hu
    exact hv
  · exact hr g u (by rwa [RawDescriptor.get_setInt_of_ne hgf] at hu)

/-- Only a register or a numeric field carries an integer (R200). -/
theorem RawDescriptor.isRegister_or_isNumeric_of_get {r : RawDescriptor} {f : FieldName} {v : Int}
    (h : r.get f = some (.int v)) : f.isRegister = true ∨ f.isNumeric = true := by
  cases f with
  | n | z | p | shift_type => simp [RawDescriptor.get] at h
  | dr | sr | sr1 | sr2 | base_r => exact .inl rfl
  | _ => exact .inr rfl

/-- The widest range of R205 is that of JSR's 11-bit offset. -/
theorem statedRange_bounds {c : Config} {t : VariantTag} {f : FieldName} {lo hi : Int}
    (h : statedRange c t f = some (lo, hi)) : -1024 ≤ lo ∧ lo ≤ hi ∧ hi ≤ 1023 := by
  cases f with
  | imm5 | offset6 | boffset6 => cases h; decide
  | pc_offset | amount4 | trapvect8 =>
    rw [statedRange] at h
    split_ifs at h <;> cases h <;> decide
  | _ => cases h

theorem inS_twelve_of_inFieldRange {c : Config} {t : VariantTag} {f : FieldName} {v : Int}
    (hint : f.isRegister = true ∨ f.isNumeric = true) (h : inFieldRange c t v f = true) : inS 12 v := by
  simp only [inS]
  obtain hreg | hnum := hint
  · rw [Machine.inFieldRange_of_isRegister hreg, decide_eq_true_eq] at h
    omega
  · obtain ⟨lo, hi, hstated⟩ := Machine.exists_statedRange hnum c t
    have hbounds := statedRange_bounds hstated
    rw [Machine.inFieldRange_of_statedRange hstated, decide_eq_true_eq] at h
    omega

theorem fits_toRaw {c : Config} {i : Instr} (hc : c.wf = true) (hwf : i.wellFormed c = true) :
    i.toRaw.fits c = true := by
  have hrange := (Machine.range_toRaw_eq_nil_iff c i).2 (wellFormed_iff.1 hwf).2
  simp only [List.filterMap_eq_nil_iff, Machine.rangeAt_eq_none_iff] at hrange
  rw [RawDescriptor.fits_iff]
  intro f v hv
  have hf : f ∈ slotFields i.variant := by
    by_contra hf
    simp [Machine.toRaw_get_eq_none hf] at hv
  exact fitsBus_of_inS_twelve hc
    (inS_twelve_of_inFieldRange (RawDescriptor.isRegister_or_isNumeric_of_get hv) (hrange f hf v hv))

end Sys2Proof

/-! # The caller's bytes (20_memory.md)

SUPPORT. Either byte order puts a word's two bytes together again. -/

namespace Sys2Proof

/-- The decoder reads the two bytes as the word they came from and leaves the bytes after them. -/
theorem decodeBytes_wordBytes (c : Config) (o : ImageByteOrder) (w : Word16) (rest : List Byte) {i : Instr}
    (h : decode c w = .ok i) : decodeBytes c o (wordBytes o w ++ rest) = .ok (i, rest) := by
  have hword : w.extractLsb' 8 8 ++ w.extractLsb' 0 8 = w := by
    rw [BitVec.extractLsb'_append_extractLsb'_eq_extractLsb' (by decide)]
    exact BitVec.extractLsb'_eq_self
  cases o <;> simp [decodeBytes, wordBytes, bytesWord, hword, h]

end Sys2Proof

/-! # Operand buses and image bytes: the obligations -/

namespace Sys2Proof.Machine

/-- Settles O50: a validated request lies in the ranges, and the values put in lie at most one outside of them. -/
theorem legalBusWidthsCarryEveryRequest : Obligations.LegalBusWidthsCarryEveryRequest := by
  intro c i hc hwf
  have carried {f : FieldName} {v : Int} (hint : f.isRegister = true ∨ f.isNumeric = true) (hv : inS 12 v) :
      (i.toRaw.setInt f v).fits c = true :=
    RawDescriptor.fits_setInt (fits_toRaw hc hwf) hint (fitsBus_of_inS_twelve hc hv)
  refine ⟨fits_toRaw hc hwf, fun f lo hi hstated => ?_, fun f hf => ?_⟩
  · have hnum : f.isNumeric = true := isNumeric_of_statedRange hstated
    have hbounds := statedRange_bounds hstated
    exact ⟨carried (.inr hnum) (by simp only [inS]; omega), carried (.inr hnum) (by simp only [inS]; omega)⟩
  · have hreg : f.isRegister = true := FieldName.isRegister_iff_mem.2 hf
    exact ⟨carried (.inl hreg) (by decide), carried (.inl hreg) (by decide)⟩

/-- Settles O51: the bytes make up the word, which decodes to the canonical descriptor. -/
theorem imageBytesDecodeInEitherOrder : Obligations.ImageBytesDecodeInEitherOrder :=
  fun c o i rest hwf => decodeBytes_wordBytes c o (encode c i) rest (decode_encode hwf)

end Sys2Proof.Machine
